-- ==== Sys2Proof/Word.lean ====
section
/-! DEFINITION. The words of the device: bytes, 64-bit guest-physical addresses, the four access sizes of a
bus transaction (spec/00_scope.md section 5, spec/20_memory.md R44) and the two kinds of access. -/

namespace Sys2Proof

/-- A byte of guest memory or of the disk. -/
abbrev Byte := BitVec 8

/-- A 32-bit register value (R25, R26). -/
abbrev Word32 := BitVec 32

/-- A 64-bit value of the port data paths (decision D8). -/
abbrev Word64 := BitVec 64

/-- A 64-bit guest-physical address (R44); sums wrap modulo 2^64 (R52). -/
abbrev Addr := BitVec 64

/-- The access sizes of ports S and M: 1, 2, 4 or 8 bytes (R44, R71). -/
inductive Size where
  | b | h | w | d
  deriving DecidableEq, Repr

/-- How many bytes an access of this size moves. -/
def Size.bytes : Size → Nat
  | .b => 1
  | .h => 2
  | .w => 4
  | .d => 8

/-- The kind of a faulting access (R210, R212): it follows the access, not the instruction (R213). -/
inductive AccessKind where
  | load | store
  deriving DecidableEq, Repr

end Sys2Proof
end

