-- ==== Sys2Proof/Config.lean ====
section
/-! DEFINITION. What is fixed for a device: the constants of spec/00_scope.md R2, the named parameters of
its section 4 (R3), and the free values by which parts of the bus answer that the spec leaves to the bus
(spec/20_memory.md R44, spec/93_implementation_defined.md U12). -/

namespace Sys2Proof

namespace Config

/-- QUEUE_SIZE and QUEUE_NUM_MAX_VALUE (R2). -/
def queueSize : Nat := 8
/-- DESC_SIZE in bytes (R2). -/
def descSize : Nat := 16
/-- SECTOR_SIZE in bytes (R2). -/
def sectorSize : Nat := 512
/-- AVAIL_OFFSET in bytes after the descriptor table base (R2). -/
def availOffset : Addr := 0x40
/-- USED_OFFSET in bytes after the descriptor table base (R2). -/
def usedOffset : Addr := 4096
/-- USED_FIELD_OFFSET in bytes into the used-ring region (R2). -/
def usedFieldOffset : Addr := 2
/-- SECTOR_FIELD_OFFSET in bytes into the request header (R2). -/
def sectorFieldOffset : Addr := 8
/-- VERSION_VALUE (R2, R101). -/
def versionValue : Word32 := 1
/-- DEVICE_ID_VALUE (R2, R102). -/
def deviceIdValue : Word32 := 2
/-- QUEUE_NUM_MAX_VALUE (R2, R107). -/
def queueNumMaxValue : Word32 := 8

end Config

/-- BADSIZE_POLICY (decision D7): what a window access that is not 4 bytes wide gets. -/
inductive BadsizePolicy where
  | fault | zero
  deriving DecidableEq, Repr

/-- The named parameters of spec/00_scope.md section 4. They are arguments of the model, not state of the
device (R3); log 1 says where the model keeps them. The defaults are those of spec/92_eei_decisions.md, most
of them general knowledge (log 20). -/
structure Params where
  /-- VIRTIO_BASE (D1). -/
  virtioBase : Addr := 0x10001000
  /-- VIRTIO_SIZE in bytes (D2). -/
  virtioSize : Nat := 0x1000
  /-- MAGIC_VALUE (D3). -/
  magicValue : Word32 := 0x74726976
  /-- VENDOR_ID_VALUE (D4). -/
  vendorIdValue : Word32 := 0x554D4551
  /-- VIRTIO_IRQ (D5). -/
  virtioIrq : Nat := 1
  /-- BADSIZE_POLICY (D7). -/
  badsizePolicy : BadsizePolicy := .fault
  /-- ID_WIDTH in bits (D10). -/
  idWidth : Nat := 64
  /-- ID_RESET (D10). -/
  idReset : Nat := 0
  /-- NOTIFY_SENTINEL (D11). -/
  notifySentinel : Option Word32 := none
  /-- 0x010 is in DRVFEAT_WR_OFFSETS (D12). -/
  drvfeatAt010 : Bool := true
  /-- 0x020 is in DRVFEAT_WR_OFFSETS (D12). -/
  drvfeatAt020 : Bool := false
  /-- AVAIL_IDX_OFF (D13). -/
  availIdxOff : Addr := 1
  /-- AVAIL_RING_OFF (D13). -/
  availRingOff : Addr := 2
  /-- AVAIL_SLOT_STRIDE (D13). -/
  availSlotStride : Addr := 1
  /-- DESC_READ_PLAN (D14): the widths of the reads that fetch one descriptor, in ascending address order. -/
  descReadPlan : List Size := [.d, .w, .h, .h]
  /-- LOAD_FAULT_CODE (D23). -/
  loadFaultCode : Nat := 5
  /-- STORE_FAULT_CODE (D23). -/
  storeFaultCode : Nat := 7
  deriving DecidableEq, Repr

/-- What has passed on the bus: an access the device issued on port M (R44), or a store of the driver (R51 a). -/
inductive BusAccess where
  /-- MemRead(addr, size). -/
  | load (addr : Addr) (size : Size)
  /-- MemWrite of these bytes, the lowest address first. -/
  | store (addr : Addr) (bytes : List Byte)
  /-- a store of the driver between two requests (log 14) -/
  | driver (addr : Addr) (bytes : List Byte)
  deriving DecidableEq, Repr

/-- How the bus answers the addresses of a region (R44, log 5, log 6). A map of one `device` region over the whole
address space is the bus of which nothing is known. -/
inductive RegionKind where
  /-- memory that completes every access -/
  | ram
  /-- memory that refuses an access whose address is no multiple of its width -/
  | alignedRam
  /-- anything else behind the bus: what an access with a byte in it is answered, and which bytes of guest memory
  change by it, are free values (`Config.deviceLoad`, `Config.deviceStore`) -/
  | device
  deriving DecidableEq, Repr

/-- A region of the bus's address map: the addresses from `base` to `base + size - 1`. -/
structure Region where
  base : Nat
  size : Nat
  kind : RegionKind
  deriving DecidableEq, Repr

namespace Config

/-- FREE VALUE (log 6): what the bus answers to a read with a byte in a region of kind `device` (`none` is a
fault), and the bytes of guest memory it changes by it, in order. It may depend on guest memory (its cells) and on
all that has passed on the bus, newest first. R44 and U12 leave it to the bus, so nothing is known of it. -/
opaque deviceLoad (mem : List (Nat × Byte)) (history : List BusAccess) (addr : Addr) (size : Size) :
    Option Word64 × List (Addr × Byte)

/-- FREE VALUE (log 6): whether the bus accepts a write with a byte in a region of kind `device`, and the bytes of
guest memory that change by it, in order, whether it accepts it or not: a half-done write is one of the values. -/
opaque deviceStore (mem : List (Nat × Byte)) (history : List BusAccess) (addr : Addr) (bytes : List Byte) :
    Bool × List (Addr × Byte)

end Config

end Sys2Proof
end

