-- ==== Sys2Proof/Syntax.lean ====
section
/-! DEFINITION. The operations of the device, one constructor per row of spec/opcode_table.json
(spec/30_encoding.md R70): they stand where a processor has instructions. `off` is the offset
`addr - VIRTIO_BASE` of a slave-port transaction, 64 bits wide so that every VIRTIO_SIZE fits (R71, log 25);
`wdata` is the 64-bit write data (R73). -/

namespace Sys2Proof

/-- One operation of the device. -/
inductive Instr where
  /-- RD.MAGIC (R100) -/
  | rdMagic
  /-- RD.VERSION (R101) -/
  | rdVersion
  /-- RD.DEVID (R102) -/
  | rdDevid
  /-- RD.VENDOR (R103) -/
  | rdVendor
  /-- RD.DEVFEAT (R104) -/
  | rdDevfeat
  /-- RD.DRVFEAT (R106) -/
  | rdDrvfeat
  /-- RD.QNUMMAX (R107) -/
  | rdQnummax
  /-- RD.QPFN (R108) -/
  | rdQpfn
  /-- RD.STATUS (R109) -/
  | rdStatus
  /-- RD.ZERO (R110) -/
  | rdZero (off : Word64)
  /-- WR.DEVFEAT (R121) -/
  | wrDevfeat (wdata : Word64)
  /-- WR.DRVFEAT (R130) -/
  | wrDrvfeat (wdata : Word64)
  /-- WR.PGSZ (R122) -/
  | wrPgsz (wdata : Word64)
  /-- WR.QSEL (R123) -/
  | wrQsel (wdata : Word64)
  /-- WR.QNUM (R124) -/
  | wrQnum (wdata : Word64)
  /-- WR.QPFN (R125) -/
  | wrQpfn (wdata : Word64)
  /-- WR.NOTIFY (R126) -/
  | wrNotify (wdata : Word64)
  /-- WR.STATUS (R127) -/
  | wrStatus (wdata : Word64)
  /-- WR.NOP (R129) -/
  | wrNop (off : Word64) (wdata : Word64)
  /-- RD.BADSIZE.B (R111) -/
  | rdBadsizeB (off : Word64)
  /-- RD.BADSIZE.H (R111) -/
  | rdBadsizeH (off : Word64)
  /-- RD.BADSIZE.D (R111) -/
  | rdBadsizeD (off : Word64)
  /-- WR.BADSIZE.B (R128) -/
  | wrBadsizeB (off : Word64) (wdata : Word64)
  /-- WR.BADSIZE.H (R128) -/
  | wrBadsizeH (off : Word64) (wdata : Word64)
  /-- WR.BADSIZE.D (R128) -/
  | wrBadsizeD (off : Word64) (wdata : Word64)
  /-- IRQ.QUERY (R140) -/
  | irqQuery
  /-- DISK.INIT (R200) -/
  | diskInit (image : List Byte)
  /-- RESET (R250) -/
  | reset
  /-- DMA.BASE (R161) -/
  | dmaBase
  /-- DMA.FILL (R162) -/
  | dmaFill
  /-- DMA.HEAD (R163) -/
  | dmaHead
  /-- DMA.DESC0 (R164) -/
  | dmaDesc0
  /-- DMA.DESC1 (R165) -/
  | dmaDesc1
  /-- DMA.SECTOR (R166) -/
  | dmaSector
  /-- DMA.COPY.G2D (R168) -/
  | dmaCopyG2d
  /-- DMA.COPY.D2G (R169) -/
  | dmaCopyD2g
  /-- DMA.ID (R190) -/
  | dmaId
  /-- DMA.USED (R191) -/
  | dmaUsed
  /-- DESC.READ (R150): `a` is the address of the descriptor's first byte -/
  | descRead (a : Addr)
  /-- DISK.RDB (R201): `off` is a natural number -/
  | diskRdb (off : Nat)
  /-- DISK.WRB (R202) -/
  | diskWrb (off : Nat) (b : Byte)
  deriving DecidableEq, Repr

end Sys2Proof
end

