-- ==== Sys2Proof/WellFormed.lean ====
section
/-! DEFINITION. Which operations are well formed: RD.ZERO and WR.NOP stand for the offsets that no exact row
matches (spec/30_encoding.md R72, spec/40_mmio_read.md R110, spec/41_mmio_write.md R129). -/

namespace Sys2Proof

/-- The offsets with an exact read row (R90, the read set). -/
def readSet : List Word64 := [0x000, 0x004, 0x008, 0x00C, 0x010, 0x020, 0x034, 0x040, 0x070]

/-- The offsets with an exact write row (R90, the write set of R129). -/
def writeSet : List Word64 := [0x010, 0x020, 0x028, 0x030, 0x038, 0x040, 0x050, 0x070]

/-- The operand check of an operation: the two fallback rows take only offsets without an exact row. -/
def Instr.wellFormed : Instr → Bool
  | .rdZero off => !(readSet.contains off)
  | .wrNop off _ => !(writeSet.contains off)
  | _ => true

/-- Whether the operation's offset fits the 12-bit `off` field of the selector word (R71). -/
def Instr.fitsSelector : Instr → Bool
  | .rdZero off => off.toNat < 0x1000
  | .wrNop off _ => off.toNat < 0x1000
  | .rdBadsizeB off => off.toNat < 0x1000
  | .rdBadsizeH off => off.toNat < 0x1000
  | .rdBadsizeD off => off.toNat < 0x1000
  | .wrBadsizeB off _ => off.toNat < 0x1000
  | .wrBadsizeH off _ => off.toNat < 0x1000
  | .wrBadsizeD off _ => off.toNat < 0x1000
  | _ => true

/-- The primitives DESC.READ, DISK.RDB and DISK.WRB are called, not decoded, and have no code (R74). -/
def Instr.isPrimitive : Instr → Bool
  | .descRead _ => true
  | .diskRdb _ => true
  | .diskWrb _ _ => true
  | _ => false

end Sys2Proof
end

