-- ==== Sys2Proof/Decode.lean ====
section
/-! DEFINITION. How an operation is selected (spec/30_encoding.md R70 to R74, R90; opcode_table.json) and, after
it, the encoder. A slave-port transaction is decoded from `(we, size, offset)`, a port operation from its 2-bit
code, a sequencer phase from the 5-bit word `dir ++ pc`. -/

namespace Sys2Proof

/-- The selecting part and the write data of a slave-port transaction (R71, R72). -/
structure SlaveOp where
  we : Bool
  size : Size
  off : Word64
  wdata : Word64
  deriving DecidableEq, Repr

/-- What an operation is decoded from: the three code spaces of R70. -/
inductive Code where
  /-- a slave-port transaction -/
  | slave (op : SlaveOp)
  /-- a port operation: its code (R74) and, for DISK.INIT, the image -/
  | port (code : BitVec 2) (image : List Byte)
  /-- a sequencer phase: `dir ++ pc[3:0]` (R74) -/
  | seq (word : BitVec 5)
  deriving DecidableEq, Repr

/-- Why a code is no operation. -/
inductive DecodeError where
  /-- port code 3 is unused (R74) -/
  | unusedPortCode
  /-- phase code 0: the sequencer is idle and has no operation (R20) -/
  | idlePhase
  /-- phase codes 10 to 14 are unused (R20) -/
  | unusedPhase
  /-- phase code 15: DEAD has no operation (R20, R211) -/
  | deadPhase
  /-- bit 15 of the selector word is always 0 (R71) -/
  | reservedBit
  /-- the transaction's address is outside the register window: the bus never presents it (R72 step 1) -/
  | outsideWindow
  deriving DecidableEq, Repr

/-! ## Slave port -/

/-- The 4-byte reads of R90: an exact offset, else RD.ZERO (R72 step 4). -/
def decodeRead (off : Word64) : Instr :=
  if off = 0x000 then .rdMagic
  else if off = 0x004 then .rdVersion
  else if off = 0x008 then .rdDevid
  else if off = 0x00C then .rdVendor
  else if off = 0x010 then .rdDevfeat
  else if off = 0x020 then .rdDrvfeat
  else if off = 0x034 then .rdQnummax
  else if off = 0x040 then .rdQpfn
  else if off = 0x070 then .rdStatus
  else .rdZero off

/-- The 4-byte writes of R90: an exact offset, else WR.NOP (R72 step 4). -/
def decodeWrite (off wdata : Word64) : Instr :=
  if off = 0x010 then .wrDevfeat wdata
  else if off = 0x020 then .wrDrvfeat wdata
  else if off = 0x028 then .wrPgsz wdata
  else if off = 0x030 then .wrQsel wdata
  else if off = 0x038 then .wrQnum wdata
  else if off = 0x040 then .wrQpfn wdata
  else if off = 0x050 then .wrNotify wdata
  else if off = 0x070 then .wrStatus wdata
  else .wrNop off wdata

/-- Decoding of a slave-port transaction: the size first, then the offset (R72 steps 3 and 4). -/
def decodeSlave (op : SlaveOp) : Instr :=
  match op.we, op.size with
  | false, .w => decodeRead op.off
  | true, .w => decodeWrite op.off op.wdata
  | false, .b => .rdBadsizeB op.off
  | false, .h => .rdBadsizeH op.off
  | false, .d => .rdBadsizeD op.off
  | true, .b => .wrBadsizeB op.off op.wdata
  | true, .h => .wrBadsizeH op.off op.wdata
  | true, .d => .wrBadsizeD op.off op.wdata

/-- Whether an address lies in the register window (R25, R72 step 1). -/
def addrInWindow (p : Params) (addr : Addr) : Bool :=
  decide (p.virtioBase.toNat ≤ addr.toNat) && decide (addr.toNat < p.virtioBase.toNat + p.virtioSize)

/-- The operation of a whole slave-port transaction `(we, addr, size, wdata)` (R72). -/
def decodeTransaction (p : Params) (we : Bool) (size : Size) (addr wdata : Word64) :
    Except DecodeError Instr :=
  if addrInWindow p addr then .ok (decodeSlave ⟨we, size, addr - p.virtioBase, wdata⟩)
  else .error .outsideWindow

/-- The access size of the `sz` field (R71). -/
def sizeOfCode (sz : BitVec 2) : Size :=
  if sz = 0 then .b else if sz = 1 then .h else if sz = 2 then .w else .d

/-- The fields of a 16-bit selector word (R71), `none` if its bit 15 is set. -/
def unpackSelector (sel : BitVec 16) : Option (Bool × Size × Word64) :=
  if sel.getLsbD 15 then none
  else some (sel.getLsbD 12, sizeOfCode (sel.extractLsb' 13 2), (sel.extractLsb' 0 12).setWidth 64)

/-- The operation of a selector word with its write data (R71, R72). -/
def decodeSelector (sel : BitVec 16) (wdata : Word64) : Except DecodeError Instr :=
  match unpackSelector sel with
  | none => .error .reservedBit
  | some (we, size, off) => .ok (decodeSlave ⟨we, size, off, wdata⟩)

/-! ## Ports I and H, and the sequencer -/

/-- The port operations (R74): 0 IRQ.QUERY, 1 DISK.INIT, 2 RESET, 3 unused. -/
def decodePort (code : BitVec 2) (image : List Byte) : Except DecodeError Instr :=
  if code = 0 then .ok .irqQuery
  else if code = 1 then .ok (.diskInit image)
  else if code = 2 then .ok .reset
  else .error .unusedPortCode

/-- The sequencer rows (R20, R74): `pc` is bits 3 to 0, `dir` is bit 4 and matters in phase 7 only. -/
def decodeSeq (word : BitVec 5) : Except DecodeError Instr :=
  let pc := word.extractLsb' 0 4
  let dir := word.getLsbD 4
  if pc = 0 then .error .idlePhase
  else if pc = 1 then .ok .dmaBase
  else if pc = 2 then .ok .dmaFill
  else if pc = 3 then .ok .dmaHead
  else if pc = 4 then .ok .dmaDesc0
  else if pc = 5 then .ok .dmaDesc1
  else if pc = 6 then .ok .dmaSector
  else if pc = 7 then (if dir then .ok .dmaCopyD2g else .ok .dmaCopyG2d)
  else if pc = 8 then .ok .dmaId
  else if pc = 9 then .ok .dmaUsed
  else if pc = 15 then .error .deadPhase
  else .error .unusedPhase

/-- The decoder, total on every code. -/
def decode : Code → Except DecodeError Instr
  | .slave op => .ok (decodeSlave op)
  | .port code image => decodePort code image
  | .seq word => decodeSeq word

/-! ## The encoder -/

/-- A 4-byte read at an offset; a read carries no write data. -/
def readOp (size : Size) (off : Word64) : SlaveOp := ⟨false, size, off, 0⟩

/-- A write at an offset. -/
def writeOp (size : Size) (off wdata : Word64) : SlaveOp := ⟨true, size, off, wdata⟩

/-- The code of an operation, from the tables of R20, R74 and R90; `none` for the primitives. A `dir` bit that
the table ignores is written 0. -/
def encode : Instr → Option Code
  | .rdMagic => some (.slave (readOp .w 0x000))
  | .rdVersion => some (.slave (readOp .w 0x004))
  | .rdDevid => some (.slave (readOp .w 0x008))
  | .rdVendor => some (.slave (readOp .w 0x00C))
  | .rdDevfeat => some (.slave (readOp .w 0x010))
  | .rdDrvfeat => some (.slave (readOp .w 0x020))
  | .rdQnummax => some (.slave (readOp .w 0x034))
  | .rdQpfn => some (.slave (readOp .w 0x040))
  | .rdStatus => some (.slave (readOp .w 0x070))
  | .rdZero off => some (.slave (readOp .w off))
  | .wrDevfeat v => some (.slave (writeOp .w 0x010 v))
  | .wrDrvfeat v => some (.slave (writeOp .w 0x020 v))
  | .wrPgsz v => some (.slave (writeOp .w 0x028 v))
  | .wrQsel v => some (.slave (writeOp .w 0x030 v))
  | .wrQnum v => some (.slave (writeOp .w 0x038 v))
  | .wrQpfn v => some (.slave (writeOp .w 0x040 v))
  | .wrNotify v => some (.slave (writeOp .w 0x050 v))
  | .wrStatus v => some (.slave (writeOp .w 0x070 v))
  | .wrNop off v => some (.slave (writeOp .w off v))
  | .rdBadsizeB off => some (.slave (readOp .b off))
  | .rdBadsizeH off => some (.slave (readOp .h off))
  | .rdBadsizeD off => some (.slave (readOp .d off))
  | .wrBadsizeB off v => some (.slave (writeOp .b off v))
  | .wrBadsizeH off v => some (.slave (writeOp .h off v))
  | .wrBadsizeD off v => some (.slave (writeOp .d off v))
  | .irqQuery => some (.port 0 [])
  | .diskInit image => some (.port 1 image)
  | .reset => some (.port 2 [])
  | .dmaBase => some (.seq 0x01)
  | .dmaFill => some (.seq 0x02)
  | .dmaHead => some (.seq 0x03)
  | .dmaDesc0 => some (.seq 0x04)
  | .dmaDesc1 => some (.seq 0x05)
  | .dmaSector => some (.seq 0x06)
  | .dmaCopyG2d => some (.seq 0x07)
  | .dmaCopyD2g => some (.seq 0x17)
  | .dmaId => some (.seq 0x08)
  | .dmaUsed => some (.seq 0x09)
  | .descRead _ => none
  | .diskRdb _ => none
  | .diskWrb _ _ => none

/-- The `sz` field of an access size (R71). -/
def sizeCode : Size → BitVec 2
  | .b => 0
  | .h => 1
  | .w => 2
  | .d => 3

/-- The selector word of a slave-port transaction whose offset is below 0x1000 (R71). -/
def packSelector (op : SlaveOp) : BitVec 16 :=
  (0#1 ++ sizeCode op.size ++ BitVec.ofBool op.we ++ op.off.setWidth 12 : BitVec 16)

/-- The selector word and the write data of a slave-port operation, `none` for any other operation. -/
def encodeSelector (i : Instr) : Option (BitVec 16 × Word64) :=
  match encode i with
  | some (.slave op) => some (packSelector op, op.wdata)
  | _ => none

/-! ## The table's words -/

/-- The code an opcode-table word of `nbits` bits stands for, its operands all zero. Selector words have 16
bits, port codes 2, phase words 4 or 5. Port codes and phase words both fill one byte: a byte below 3 is read
as a port code, any other as a phase word (log 22). -/
def tableCode (nbits w : Nat) : Option Code :=
  if nbits = 16 then
    match unpackSelector (BitVec.ofNat 16 w) with
    | some (we, size, off) => some (.slave ⟨we, size, off, 0⟩)
    | none => none
  else if nbits = 2 then some (.port (BitVec.ofNat 2 w) [])
  else if nbits = 4 ∨ nbits = 5 then some (.seq (BitVec.ofNat 5 w))
  else if nbits = 8 then
    if w < 3 then some (.port (BitVec.ofNat 2 w) [])
    else if w < 32 then some (.seq (BitVec.ofNat 5 w))
    else none
  else none

/-- The operation the decoder reads from an opcode-table word. -/
def decodeTableWord (nbits w : Nat) : Option Instr :=
  match tableCode nbits w with
  | none => none
  | some c =>
    match decode c with
    | .ok i => some i
    | .error _ => none

end Sys2Proof
end

