-- ==== Sys2Proof/Machine/State.lean ====
section
/-! DEFINITION. The state of the device as plain data (spec/10_state.md R10 to R22, R30, R35), together with
the parameters, the guest memory and bus behind port M, and the model's own fields for the ports. -/

namespace Sys2Proof.Machine

/-- The sequencer phases (R20). The unused codes 10 to 14 have no constructor: they are unreachable. -/
inductive Phase where
  | idle | base | fill | head | desc0 | desc1 | sector | copy | id | used | dead
  deriving DecidableEq, Repr

/-- A descriptor record (R80, R150). -/
structure Desc where
  address : Addr := 0
  length : BitVec 32 := 0
  flags : BitVec 16 := 0
  next : BitVec 16 := 0
  deriving DecidableEq, Repr

/-- The transient values of the sequencer (R21), meaningful while `pc` is not IDLE. -/
structure Xfer where
  base : Addr := 0
  avail : Addr := 0
  used : Addr := 0
  fill : BitVec 16 := 0
  slot : BitVec 3 := 0
  head : BitVec 16 := 0
  d0 : Desc := {}
  d1 : Desc := {}
  sector : Word64 := 0
  i : BitVec 33 := 0
  deriving DecidableEq, Repr

/-- The transient values outside a transfer: all zero (R21 "none survives to IDLE"; log 10). -/
def Xfer.blank : Xfer := {}

/-- Guest memory: the bytes that differ from what an unlisted byte reads as, addresses strictly rising. -/
abbrev Memory := List Host.Cell

/-- What the environment presents (spec/00_scope.md section 5, log 14). -/
inductive Event where
  /-- a transaction on port S -/
  | slave (we : Bool) (size : Size) (addr wdata : Word64)
  /-- an operation on port I or H: its code (R74) and, for DISK.INIT, the image -/
  | port (code : BitVec 2) (image : List Byte)
  /-- a store of the driver into guest memory, no operation of the device (R51 a) -/
  | guestStore (addr : Addr) (bytes : List Byte)
  deriving DecidableEq, Repr

/-- What the device last put on its answering ports, or a primitive's result (log 12). -/
inductive Answer where
  /-- nothing has been answered -/
  | none
  /-- `respond v` on port S -/
  | rdata (v : Word64)
  /-- `done` on port S, or a completed operation of port H -/
  | done
  /-- the bit IRQ.QUERY returns on port I -/
  | query (b : Bool)
  /-- `SizeFault(kind, addr)` with its cause code (R212, R213) -/
  | sizeFault (kind : AccessKind) (addr : Addr) (code : Nat)
  /-- `BusFault(kind, addr)` with its cause code (R210, R213) -/
  | busFault (kind : AccessKind) (addr : Addr) (code : Nat)
  /-- the record DESC.READ returns (R150) -/
  | descriptor (d : Desc)
  /-- the byte DISK.RDB returns (R201) -/
  | diskByte (b : Byte)
  /-- `DiskAbort(off)`: no port answers; `off` is for diagnosis only (R211, R213) -/
  | noAnswer (off : Nat)
  deriving DecidableEq, Repr

/-- Why the machine stops. -/
inductive Fault where
  /-- Any operation or step while `pc = DEAD`: the device answers nothing and has no successor state (R211,
  decision D35). Raised by every operation and by `step`. Safe: nothing can be proved through it. -/
  | dead
  deriving DecidableEq, Repr

/-- Why an operation has no meaning in a state. -/
inductive Refusal where
  /-- An operation without a meaning yet. Safe. -/
  | notModelled (mnemonic : String)
  /-- WR.NOTIFY with x[QPFN] = 0 or x[PGSZ] = 0: the spec's treatment is `refuse` (R261, decision D19).
  Raised by WR.NOTIFY. Safe. -/
  | queueNotConfigured
  /-- A request on port S, I or H while a transfer is running: the device has no defined move (R233).
  Raised by the operations of those ports. Safe: every request finds `pc` IDLE or DEAD (R20). -/
  | transferRunning
  /-- RESET or DISK.INIT after the first slave-port transaction: the device has no defined move (R233,
  decision D22). Raised by RESET and DISK.INIT. Safe. -/
  | runStarted
  /-- A sequencer operation outside its own phase: only `pc` selects it (R20, R74). Raised by the DMA
  operations. Safe: `step` never selects one so. -/
  | wrongPhase
  /-- Port code 3, which is unused (R74). Raised by `step`. Safe. -/
  | unusedPortCode
  deriving DecidableEq, Repr

/-- The state. -/
structure State where
  /-- the parameters (R3, log 1) -/
  params : Params := {}
  /-- x[ID], a number below 2^ID_WIDTH (R12) -/
  id : Nat := 0
  /-- x[DRVFEAT] -/
  drvfeat : Word32 := 0
  /-- x[PGSZ] -/
  pgsz : Word32 := 0
  /-- x[QSEL] -/
  qsel : Word32 := 0
  /-- x[QNUM] -/
  qnum : Word32 := 0
  /-- x[QPFN] -/
  qpfn : Word32 := 0
  /-- x[NOTIFY].valid -/
  notifyValid : Bool := false
  /-- x[NOTIFY].value -/
  notifyValue : Word32 := 0
  /-- x[STATUS] -/
  status : Word32 := 0
  /-- the sequencer phase (R20) -/
  pc : Phase := .idle
  /-- the transient sequencer values (R21) -/
  xfer : Xfer := .blank
  /-- the disk backing store; its length is DISK_LEN (R30) -/
  disk : List Byte := []
  /-- guest memory behind port M (R44) -/
  mem : Memory := []
  /-- which addresses the bus backs, the first matching region deciding (R44, log 4) -/
  regions : List Region := [⟨0, 0x10000, .ram⟩]
  /-- what has passed on the bus, newest first: the port-M accesses issued and the driver's stores (log 13) -/
  busLog : List BusAccess := []
  /-- what the environment still has to present, the next one first (log 14) -/
  inbox : List Event := []
  /-- whether a slave-port transaction has been presented (log 15) -/
  running : Bool := false
  /-- the last answer (log 12) -/
  answer : Answer := .none
  deriving DecidableEq, Repr

/-- The machine right after reset (R35, R250): every register 0, x[ID] = ID_RESET, `pc` IDLE, the disk empty,
no interrupt pending; the parameters at their defaults, the guest memory empty behind the test bus of
spec/95_test_vectors.md. -/
def State.reset : State where
  params := {}
  id := 0
  drvfeat := 0
  pgsz := 0
  qsel := 0
  qnum := 0
  qpfn := 0
  notifyValid := false
  notifyValue := 0
  status := 0
  pc := .idle
  xfer := .blank
  disk := []
  mem := []
  regions := [⟨0, 0x10000, .ram⟩]
  busLog := []
  inbox := []
  running := false
  answer := .none

end Sys2Proof.Machine
end

