-- ==== Sys2Proof/Machine/Flags.lean ====
section
/-! DEFINITION. The flag-like state of the device (spec/10_state.md R22): the notify-pending bit, the interrupt
level it drives (spec/60_exceptions.md R220 to R223), and the flag bits of a descriptor (R81). The device has no
condition codes. -/

namespace Sys2Proof.Machine

/-- Whether a written notify value marks a notification as pending: every value but NOTIFY_SENTINEL (R126). -/
def marksPending (p : Params) (v : Word32) : Bool :=
  match p.notifySentinel with
  | none => true
  | some sentinel => v != sentinel

/-- The register update of a Queue Notify write (R126): `value` always, `valid` unless `v` is the sentinel. -/
def setNotify (v : Word32) (s : State) : State :=
  { s with notifyValue := v, notifyValid := s.notifyValid || marksPending s.params v }

/-- The clearing of the pending indicator by the query; `value` stays (R140). -/
def clearNotify (s : State) : State := { s with notifyValid := false }

/-- The interrupt output, a level (R220). -/
def irqLevel (s : State) : Bool := s.notifyValid

/-- The interrupt line as the controller sees it: the number VIRTIO_IRQ while asserted (R221). -/
def irqLine (s : State) : Option Nat := if irqLevel s then some s.params.virtioIrq else none

/-- Bit 1 of a descriptor's flags, device-writable: the direction of the copy, 1 = disk to guest (R81, R167).
No other flag bit is looked at. -/
def deviceWritable (d : Desc) : Bool := d.flags.getLsbD 1

end Sys2Proof.Machine
end

