-- ==== Sys2Proof/Machine/Operands.lean ====
section
/-! DEFINITION. Operand assembly and address arithmetic: port S (spec/30_encoding.md R73), little-endian
fields of guest memory (spec/20_memory.md R41), the addresses of a transfer (R45, R52; spec/10_state.md R17)
and the 5-bit word that selects a sequencer operation (R74). -/

namespace Sys2Proof.Machine

/-! ## Port S -/

/-- The value a 4-byte write stores: `wdata[31:0]` (R73). -/
def writeValue (wdata : Word64) : Word32 := wdata.setWidth 32

/-- The read data of a 32-bit value: zero-extended to 64 bits (R73). -/
def readData (v : Word32) : Word64 := v.setWidth 64

/-- The address of a slave-port transaction from its offset (R72). -/
def windowAddr (p : Params) (off : Word64) : Addr := p.virtioBase + off

/-- What a 4-byte read at an offset returns: the read column of the register map (R25). -/
def registerRead (s : State) (off : Word64) : Word32 :=
  if off = 0x000 then s.params.magicValue
  else if off = 0x004 then Config.versionValue
  else if off = 0x008 then Config.deviceIdValue
  else if off = 0x00C then s.params.vendorIdValue
  else if off = 0x010 then 0
  else if off = 0x020 then s.drvfeat
  else if off = 0x034 then Config.queueNumMaxValue
  else if off = 0x040 then s.qpfn
  else if off = 0x070 then s.status
  else 0

/-! ## Little-endian values (R41) -/

/-- The number whose little-endian bytes these are, the lowest address first. -/
def leNat : List Byte → Nat
  | [] => 0
  | b :: rest => b.toNat + 256 * leNat rest

/-- The `n` low little-endian bytes of a number, the lowest address first. -/
def leBytes : Nat → Nat → List Byte
  | 0, _ => []
  | n + 1, v => BitVec.ofNat 8 v :: leBytes n (v / 256)

/-- An unsigned field assembled from its bytes. -/
def leField (w : Nat) (bytes : List Byte) : BitVec w := BitVec.ofNat w (leNat bytes)

/-- The descriptor record in 16 raw bytes (R80). -/
def descOfBytes (raw : List Byte) : Desc where
  address := leField 64 (raw.take 8)
  length := leField 32 ((raw.drop 8).take 4)
  flags := leField 16 ((raw.drop 12).take 2)
  next := leField 16 ((raw.drop 14).take 2)

/-! ## Addresses of a transfer -/

/-- `desc_table_address()` (R17): the product of two 32-bit values never overflows 64 bits. -/
def descTableAddress (s : State) : Addr := s.qpfn.setWidth 64 * s.pgsz.setWidth 64

/-- The start of the available-ring region (R161). -/
def availAddr (base : Addr) : Addr := base + Config.availOffset

/-- The start of the used-ring region (R161). -/
def usedAddr (base : Addr) : Addr := base + Config.usedOffset

/-- Where T_FILL reads (R162). -/
def fillAddr (p : Params) (avail : Addr) : Addr := avail + p.availIdxOff

/-- `fill mod 8` (R162). -/
def slotOf (fill : BitVec 16) : BitVec 3 := BitVec.ofNat 3 (fill.toNat % Config.queueSize)

/-- Where T_HEAD reads (R163). -/
def slotAddr (p : Params) (avail : Addr) (slot : BitVec 3) : Addr :=
  avail + p.availRingOff + p.availSlotStride * slot.setWidth 64

/-- Entry `k` of the descriptor table; `k` is not reduced (R151). -/
def descAddr (base : Addr) (k : BitVec 16) : Addr := base + BitVec.ofNat 64 (Config.descSize * k.toNat)

/-- Where T_SECTOR reads (R166). -/
def sectorAddr (d0 : Desc) : Addr := d0.address + Config.sectorFieldOffset

/-- The guest address of byte `i` of the data buffer (R167). -/
def bufferAddr (d1 : Desc) (i : BitVec 33) : Addr := d1.address + i.setWidth 64

/-- The disk offset of byte `i`: exact, not reduced (R167, decision D36). -/
def diskOffset (sector : Word64) (i : BitVec 33) : Nat := sector.toNat * Config.sectorSize + i.toNat

/-- Where T_USED writes (R191). -/
def usedFieldAddr (used : Addr) : Addr := used + Config.usedFieldOffset

/-- The bytes T_USED writes: `x[ID] mod 8` as a 16-bit value (R191). -/
def usedFieldBytes (id : Nat) : List Byte := leBytes 2 (id % Config.queueSize)

/-- The next request id (R190). -/
def nextId (p : Params) (id : Nat) : Nat := (id + 1) % 2 ^ p.idWidth

/-- Whether bytes are left to copy (R167). -/
def copyLeft (x : Xfer) : Bool := decide (x.i.toNat < x.d1.length.toNat)

/-! ## Selection of a sequencer operation -/

/-- The 4-bit code of a phase (R20). -/
def Phase.code : Phase → BitVec 4
  | .idle => 0
  | .base => 1
  | .fill => 2
  | .head => 3
  | .desc0 => 4
  | .desc1 => 5
  | .sector => 6
  | .copy => 7
  | .id => 8
  | .used => 9
  | .dead => 15

/-- The word `dir ++ pc[3:0]` (R74). -/
def seqWord (s : State) : BitVec 5 := BitVec.ofBool (deviceWritable s.xfer.d1) ++ s.pc.code

/-- The phase a 4-bit code names, if any (R20). -/
def phaseOfCode (code : BitVec 4) : Option Phase :=
  if code = 0 then some .idle
  else if code = 1 then some .base
  else if code = 2 then some .fill
  else if code = 3 then some .head
  else if code = 4 then some .desc0
  else if code = 5 then some .desc1
  else if code = 6 then some .sector
  else if code = 7 then some .copy
  else if code = 8 then some .id
  else if code = 9 then some .used
  else if code = 15 then some .dead
  else none

end Sys2Proof.Machine
end

