-- ==== Sys2Proof/Machine/Ops.lean ====
section
/-! DEFINITION. The shared operations: guest memory, the bus behind port M (spec/20_memory.md R41 to R57), the
disk (spec/46_disk_store.md R200 to R203), the answers of the ports, and raising and ending
(spec/60_exceptions.md R210 to R213, R226, R227). -/

namespace Sys2Proof.Machine

/-! ## Guest memory -/

/-- What a byte of guest memory that nothing has written reads as (log 3). -/
def unlistedByte : Byte := 0

/-- The byte of guest memory at an address. -/
def readByte : Memory → Nat → Byte
  | [], _ => unlistedByte
  | (k, v) :: rest, a => if k = a then v else readByte rest a

/-- Guest memory with one byte written; the canonical form is kept. -/
def writeByte : Memory → Nat → Byte → Memory
  | [], a, v => if v = unlistedByte then [] else [(a, v)]
  | (k, w) :: rest, a, v =>
    if a < k then (if v = unlistedByte then (k, w) :: rest else (a, v) :: (k, w) :: rest)
    else if k = a then (if v = unlistedByte then rest else (a, v) :: rest)
    else (k, w) :: writeByte rest a v

/-- The canonical form from a lower bound on: addresses strictly rising and below 2^64, no entry equal to what
an unlisted address reads as. -/
def memoryWfFrom : Nat → Memory → Bool
  | _, [] => true
  | lo, (k, v) :: rest =>
    decide (lo ≤ k) && decide (k < 2 ^ 64) && decide (v ≠ unlistedByte) && memoryWfFrom (k + 1) rest

/-- Guest memory is in canonical form. -/
def Memory.wf (m : Memory) : Bool := memoryWfFrom 0 m

/-- The `n` bytes from an address on, wrapping at 2^64 (R41, R52). -/
def readBytes (m : Memory) (a : Addr) : Nat → List Byte
  | 0 => []
  | n + 1 => readByte m a.toNat :: readBytes m (a + 1) n

/-- Bytes written from an address on, the lowest first, wrapping at 2^64. -/
def writeBytes (m : Memory) (a : Addr) : List Byte → Memory
  | [] => m
  | b :: rest => writeBytes (writeByte m a.toNat b) (a + 1) rest

/-- Guest memory with single bytes written, in their order. -/
def writeCells (m : Memory) : List (Addr × Byte) → Memory
  | [] => m
  | (a, b) :: rest => writeCells (writeByte m a.toNat b) rest

/-! ## The bus behind port M -/

/-- The kind of the first region that holds an address; `none` if the bus backs it by nothing. -/
def kindAt : List Region → Addr → Option RegionKind
  | [], _ => none
  | r :: rest, a =>
    if r.base ≤ a.toNat ∧ a.toNat < r.base + r.size then some r.kind else kindAt rest a

/-- Whether a byte is memory of either kind. -/
def isMemory (k : Option RegionKind) : Bool := k == some .ram || k == some .alignedRam

/-- Whether the `n` bytes from an address on are all memory. -/
def bytesAreMemory (rs : List Region) (a : Addr) : Nat → Bool
  | 0 => true
  | n + 1 => isMemory (kindAt rs a) && bytesAreMemory rs (a + 1) n

/-- Whether a byte of the `n` bytes from an address on lies in a region of kind `device`: such an access is
answered by the free values as a whole, also where it starts or ends in memory or in a hole (log 6). -/
def touchesDevice (rs : List Region) (a : Addr) : Nat → Bool
  | 0 => false
  | n + 1 => kindAt rs a == some .device || touchesDevice rs (a + 1) n

/-- Whether memory completes an access of `n` bytes, none of them in a `device` region: every byte is memory, and
where the first one is `alignedRam` the address is a multiple of `n` (log 5). -/
def memoryAccepts (rs : List Region) (a : Addr) (n : Nat) : Bool :=
  bytesAreMemory rs a n && (kindAt rs a != some .alignedRam || a.toNat % n == 0)

/-- A port-M read that falls into the device's own window: port S answers it (R57). 4 bytes read a register;
any other width is a SizeFault, taken as a BusFault, or reads 0 by BADSIZE_POLICY (R111). -/
def windowLoad (s : State) (a : Addr) (n : Size) : Option (List Byte) :=
  match n with
  | .w => some (leBytes 4 (registerRead s (a - s.params.virtioBase)).toNat)
  | _ =>
    match s.params.badsizePolicy with
    | .fault => none
    | .zero => some (List.replicate n.bytes 0)

/-- The bus's answer to `MemRead(a, n)`: the bytes, the lowest address first, or `none` for a fault, and guest
memory after it (R44). The first address decides whether port S answers (log 7); otherwise one byte in a `device`
region makes the answer and the memory after it free values (log 6); memory answers the rest, and refuses as a
whole what it does not accept (log 5). -/
def busRead (s : State) (a : Addr) (n : Size) : Option (List Byte) × Memory :=
  if addrInWindow s.params a then (windowLoad s a n, s.mem)
  else if touchesDevice s.regions a n.bytes then
    let reply := Config.deviceLoad s.mem s.busLog a n
    (reply.1.map (fun v => leBytes n.bytes v.toNat), writeCells s.mem reply.2)
  else if memoryAccepts s.regions a n.bytes then (some (readBytes s.mem a n.bytes), s.mem)
  else (none, s.mem)

/-- A port-M write that falls into the device's own window. The engine's writes are 1 and 2 bytes wide, so
each is a wrong-size write (R57, R128): a fault or ignored. -/
def windowStore (s : State) : Bool :=
  match s.params.badsizePolicy with
  | .fault => false
  | .zero => true

/-- The bus's answer to `MemWrite` of these bytes: whether it is done, and guest memory after it (R44). The cases
are those of `busRead` (log 5, log 6, log 7). -/
def busWrite (s : State) (a : Addr) (bytes : List Byte) : Bool × Memory :=
  if addrInWindow s.params a then (windowStore s, s.mem)
  else if touchesDevice s.regions a bytes.length then
    let reply := Config.deviceStore s.mem s.busLog a bytes
    (reply.1, writeCells s.mem reply.2)
  else if memoryAccepts s.regions a bytes.length then (true, writeBytes s.mem a bytes)
  else (false, s.mem)

/-- The state after an access of port M: one more entry on the record, and guest memory as the bus left it. -/
def accessed (acc : BusAccess) (m : Memory) (s : State) : State := { s with mem := m, busLog := acc :: s.busLog }

/-! ## Answers, raising and ending -/

/-- The slave port answers read data (R73). -/
def respond (v : Word32) (s : State) : State := { s with answer := .rdata (readData v) }

/-- The operation completes with no fault. -/
def respondDone (s : State) : State := { s with answer := .done }

/-- The cause code that travels with a fault (R213). -/
def faultCode (p : Params) : AccessKind → Nat
  | .load => p.loadFaultCode
  | .store => p.storeFaultCode

/-- `raise SizeFault(kind, addr)`: the answer of the transaction, no other effect (R212). -/
def raiseSizeFault (kind : AccessKind) (a : Addr) (s : State) : State :=
  { s with answer := .sizeFault kind a (faultCode s.params kind) }

/-- The end of a transfer: `pc` is IDLE, no transient value survives (R21, R160), the notify write is answered. -/
def endTransfer (ans : Answer) (s : State) : State :=
  { s with pc := .idle, xfer := .blank, answer := ans }

/-- `raise BusFault(kind, addr)`: the transfer stops where it is, nothing is undone, no register records it,
the device goes on answering, and the fault with its code is the answer of the notify write (R210, R213). The
device saves no pc and has no return operation (R226, R227). -/
def raiseBusFault (kind : AccessKind) (a : Addr) (s : State) : State :=
  endTransfer (.busFault kind a (faultCode s.params kind)) s

/-- `raise DiskAbort(off)`: `pc` is DEAD, nothing is answered, the rest stays (R211). -/
def raiseDiskAbort (off : Nat) (s : State) : State :=
  { s with pc := .dead, answer := .noAnswer off }

/-! ## Accesses that raise, with the rest of the operation as a continuation -/

/-- `v <- MemRead(a, n)`, then the rest of the operation; a refused read raises `BusFault(load, a)` (R44). -/
def memRead (s : State) (a : Addr) (n : Size) (rest : List Byte → State → State) : State :=
  match busRead s a n with
  | (some bytes, m) => rest bytes (accessed (.load a n) m s)
  | (none, m) => raiseBusFault .load a (accessed (.load a n) m s)

/-- `MemWrite`, then the rest of the operation; a refused write raises `BusFault(store, a)` (R44). -/
def memWrite (s : State) (a : Addr) (bytes : List Byte) (rest : State → State) : State :=
  match busWrite s a bytes with
  | (true, m) => rest (accessed (.store a bytes) m s)
  | (false, m) => raiseBusFault .store a (accessed (.store a bytes) m s)

/-- The reads of a descriptor in ascending order, by the widths of the plan, gathering the raw bytes (R150). -/
def readPlan : List Size → Addr → List Byte → State → (List Byte → State → State) → State
  | [], _, raw, s, rest => rest raw s
  | n :: plan, a, raw, s, rest =>
    memRead s a n (fun bytes s' => readPlan plan (a + BitVec.ofNat 64 n.bytes) (raw ++ bytes) s' rest)

/-- `d <- DescRead(a)` (R150), then the rest of the operation. -/
def descRead (s : State) (a : Addr) (rest : Desc → State → State) : State :=
  readPlan s.params.descReadPlan a [] s (fun raw s' => rest (descOfBytes raw) s')

/-- `b <- DiskRead(off)` (R201), then the rest of the operation; past the end it raises `DiskAbort(off)`. -/
def diskRead (s : State) (off : Nat) (rest : Byte → State → State) : State :=
  match s.disk[off]? with
  | some b => rest b s
  | none => raiseDiskAbort off s

/-- `DiskWrite(off, b)` (R202), then the rest of the operation; past the end it raises `DiskAbort(off)`, and
the length never changes. -/
def diskWrite (s : State) (off : Nat) (b : Byte) (rest : State → State) : State :=
  if off < s.disk.length then rest { s with disk := s.disk.set off b } else raiseDiskAbort off s

/-! ## When an operation may run -/

/-- A request on port S, I or H: served in IDLE only; in DEAD nothing is answered (R211), and during a
transfer no request is defined (R233). -/
def atPort (s : State) (t : State) : Host.Outcome State Fault Refusal :=
  match s.pc with
  | .idle => .next t
  | .dead => .fault .dead
  | _ => .refused .transferRunning

/-- A host operation of port H: only before the first slave-port transaction (R233, decision D22). -/
def beforeRun (s : State) (t : State) : Host.Outcome State Fault Refusal :=
  match s.pc with
  | .idle => if s.running then .refused .runStarted else .next t
  | .dead => .fault .dead
  | _ => .refused .transferRunning

/-- A sequencer operation: only in its own phase (R20, R74). -/
def inPhase (p : Phase) (s : State) (t : State) : Host.Outcome State Fault Refusal :=
  if s.pc = .dead then .fault .dead
  else if s.pc = p then .next t
  else .refused .wrongPhase

/-- A primitive: whenever the device is not DEAD (R211). -/
def primitive (s : State) (t : State) : Host.Outcome State Fault Refusal :=
  if s.pc = .dead then .fault .dead else .next t

end Sys2Proof.Machine
end

