-- ==== Sys2Proof/Machine/Ports.lean ====
section
/-! DEFINITION. The operations of ports I and H: the interrupt query (spec/42_irq_query.md R140), the disk load
(spec/46_disk_store.md R200) and creation (spec/70_reset_and_hazards.md R250). -/

namespace Sys2Proof.Machine

/-- Every piece of the device's state at its value after creation (R35, R250). The parameters, the guest
memory, the bus and the pending requests are the environment's and stay (log 33). -/
def resetDevice (s : State) : State :=
  { s with
    id := s.params.idReset % 2 ^ s.params.idWidth
    drvfeat := 0
    pgsz := 0
    qsel := 0
    qnum := 0
    qpfn := 0
    notifyValid := false
    notifyValue := 0
    status := 0
    pc := .idle
    xfer := .blank
    disk := []
    answer := .done }

/-- IRQ.QUERY (R140): the pending bit is returned and cleared in one step (R142). -/
def execIrqQuery (s : State) : Host.Outcome State Fault Refusal :=
  atPort s { clearNotify s with answer := .query s.notifyValid }

/-- DISK.INIT (R200): the image is appended; before the run only (decision D22, R233). -/
def execDiskInit (image : List Byte) (s : State) : Host.Outcome State Fault Refusal :=
  beforeRun s (respondDone { s with disk := s.disk ++ image })

/-- RESET (R250): creation, before the run only (R233, R251). -/
def execReset (s : State) : Host.Outcome State Fault Refusal := beforeRun s (resetDevice s)

end Sys2Proof.Machine
end

