-- ==== Sys2Proof/Machine/Primitives.lean ====
section
/-! DEFINITION. The primitives the sequencer calls, as operations of their own whose result stands in `answer`
(spec/43_descriptor_reader.md R150, spec/46_disk_store.md R201, R202; log 24). -/

namespace Sys2Proof.Machine

/-- DESC.READ (R150). -/
def execDescRead (a : Addr) (s : State) : Host.Outcome State Fault Refusal :=
  primitive s (descRead s a fun d s' => { s' with answer := .descriptor d })

/-- DISK.RDB (R201). -/
def execDiskRdb (off : Nat) (s : State) : Host.Outcome State Fault Refusal :=
  primitive s (diskRead s off fun b s' => { s' with answer := .diskByte b })

/-- DISK.WRB (R202). -/
def execDiskWrb (off : Nat) (b : Byte) (s : State) : Host.Outcome State Fault Refusal :=
  primitive s (diskWrite s off b respondDone)

end Sys2Proof.Machine
end

