-- ==== Sys2Proof/Machine/SlaveRead.lean ====
section
/-! DEFINITION. The register reads of port S (spec/40_mmio_read.md R100 to R111). -/

namespace Sys2Proof.Machine

/-- A wrong-size read, by BADSIZE_POLICY (R111): SizeFault of the transaction's address, or 0. -/
def badsizeRead (off : Word64) (s : State) : State :=
  match s.params.badsizePolicy with
  | .fault => raiseSizeFault .load (windowAddr s.params off) s
  | .zero => respond 0 s

/-- RD.MAGIC (R100). -/
def execRdMagic (s : State) : Host.Outcome State Fault Refusal := atPort s (respond s.params.magicValue s)

/-- RD.VERSION (R101). -/
def execRdVersion (s : State) : Host.Outcome State Fault Refusal := atPort s (respond Config.versionValue s)

/-- RD.DEVID (R102). -/
def execRdDevid (s : State) : Host.Outcome State Fault Refusal := atPort s (respond Config.deviceIdValue s)

/-- RD.VENDOR (R103). -/
def execRdVendor (s : State) : Host.Outcome State Fault Refusal := atPort s (respond s.params.vendorIdValue s)

/-- RD.DEVFEAT (R104): 0, whatever has been written. -/
def execRdDevfeat (s : State) : Host.Outcome State Fault Refusal := atPort s (respond 0 s)

/-- RD.DRVFEAT (R106). -/
def execRdDrvfeat (s : State) : Host.Outcome State Fault Refusal := atPort s (respond s.drvfeat s)

/-- RD.QNUMMAX (R107). -/
def execRdQnummax (s : State) : Host.Outcome State Fault Refusal := atPort s (respond Config.queueNumMaxValue s)

/-- RD.QPFN (R108). -/
def execRdQpfn (s : State) : Host.Outcome State Fault Refusal := atPort s (respond s.qpfn s)

/-- RD.STATUS (R109). -/
def execRdStatus (s : State) : Host.Outcome State Fault Refusal := atPort s (respond s.status s)

/-- RD.ZERO (R110): 0 at every offset without a read row; the offset is not looked at further. -/
def execRdZero (_off : Word64) (s : State) : Host.Outcome State Fault Refusal := atPort s (respond 0 s)

/-- RD.BADSIZE.B (R111). -/
def execRdBadsizeB (off : Word64) (s : State) : Host.Outcome State Fault Refusal := atPort s (badsizeRead off s)

/-- RD.BADSIZE.H (R111). -/
def execRdBadsizeH (off : Word64) (s : State) : Host.Outcome State Fault Refusal := atPort s (badsizeRead off s)

/-- RD.BADSIZE.D (R111). -/
def execRdBadsizeD (off : Word64) (s : State) : Host.Outcome State Fault Refusal := atPort s (badsizeRead off s)

end Sys2Proof.Machine
end

