-- ==== Sys2Proof/Machine/Dma.lean ====
section
/-! DEFINITION. The sequencer phases (spec/44_dma_transfer.md R161 to R169, spec/45_used_ring.md R190, R191). A
phase is a total function on states: a raised BusFault leaves `pc` IDLE, a raised DiskAbort leaves it DEAD. -/

namespace Sys2Proof.Machine

/-- T_BASE (R161): the three region addresses. -/
def phaseBase (s : State) : State :=
  { s with
    pc := .fill
    xfer := { s.xfer with
      base := descTableAddress s
      avail := availAddr (descTableAddress s)
      used := usedAddr (descTableAddress s) } }

/-- T_FILL (R162): the ring fill index and the slot. -/
def phaseFill (s : State) : State :=
  memRead s (fillAddr s.params s.xfer.avail) .h fun bytes s' =>
    { s' with
      pc := .head
      xfer := { s'.xfer with fill := leField 16 bytes, slot := slotOf (leField 16 bytes) } }

/-- T_HEAD (R163): the descriptor index in the slot. -/
def phaseHead (s : State) : State :=
  memRead s (slotAddr s.params s.xfer.avail s.xfer.slot) .h fun bytes s' =>
    { s' with pc := .desc0, xfer := { s'.xfer with head := leField 16 bytes } }

/-- T_DESC0 (R164): descriptor #0, the request header. -/
def phaseDesc0 (s : State) : State :=
  descRead s (descAddr s.xfer.base s.xfer.head) fun d s' =>
    { s' with pc := .desc1, xfer := { s'.xfer with d0 := d } }

/-- T_DESC1 (R165): descriptor #1, the data buffer; `d0.next` is followed whatever its flags say. -/
def phaseDesc1 (s : State) : State :=
  descRead s (descAddr s.xfer.base s.xfer.d0.next) fun d s' =>
    { s' with pc := .sector, xfer := { s'.xfer with d1 := d } }

/-- T_SECTOR (R166): the sector number. The byte counter of the copy starts at 0 on entry to T_COPY (R167). -/
def phaseSector (s : State) : State :=
  memRead s (sectorAddr s.xfer.d0) .d fun bytes s' =>
    { s' with pc := .copy, xfer := { s'.xfer with sector := leField 64 bytes, i := 0 } }

/-- The byte counter advanced by one (R167). -/
def nextByte (s : State) : State := { s with xfer := { s.xfer with i := s.xfer.i + 1 } }

/-- T_COPY, guest to disk (R168): byte `i` is read from the guest, then written to the disk; with no byte left
the phase ends (R167). -/
def copyG2d (s : State) : State :=
  if copyLeft s.xfer then
    memRead s (bufferAddr s.xfer.d1 s.xfer.i) .b fun bytes s' =>
      diskWrite s' (diskOffset s'.xfer.sector s'.xfer.i) (leField 8 bytes) nextByte
  else { s with pc := .id }

/-- T_COPY, disk to guest (R169): byte `i` is read from the disk, then written to the guest; with no byte left
the phase ends (R167). -/
def copyD2g (s : State) : State :=
  if copyLeft s.xfer then
    diskRead s (diskOffset s.xfer.sector s.xfer.i) fun b s' =>
      memWrite s' (bufferAddr s'.xfer.d1 s'.xfer.i) [b] nextByte
  else { s with pc := .id }

/-- T_ID (R190): a new request id. -/
def phaseId (s : State) : State := { s with pc := .used, id := nextId s.params s.id }

/-- T_USED (R191): the used-ring field, and the end of the transfer. -/
def phaseUsed (s : State) : State :=
  memWrite s (usedFieldAddr s.xfer.used) (usedFieldBytes s.id) (endTransfer .done)

/-- DMA.BASE (R161). -/
def execDmaBase (s : State) : Host.Outcome State Fault Refusal := inPhase .base s (phaseBase s)

/-- DMA.FILL (R162). -/
def execDmaFill (s : State) : Host.Outcome State Fault Refusal := inPhase .fill s (phaseFill s)

/-- DMA.HEAD (R163). -/
def execDmaHead (s : State) : Host.Outcome State Fault Refusal := inPhase .head s (phaseHead s)

/-- DMA.DESC0 (R164). -/
def execDmaDesc0 (s : State) : Host.Outcome State Fault Refusal := inPhase .desc0 s (phaseDesc0 s)

/-- DMA.DESC1 (R165). -/
def execDmaDesc1 (s : State) : Host.Outcome State Fault Refusal := inPhase .desc1 s (phaseDesc1 s)

/-- DMA.SECTOR (R166). -/
def execDmaSector (s : State) : Host.Outcome State Fault Refusal := inPhase .sector s (phaseSector s)

/-- DMA.COPY.G2D (R168): the form of phase 7 with `dir = 0`. -/
def execDmaCopyG2d (s : State) : Host.Outcome State Fault Refusal :=
  if s.pc = .copy ∧ deviceWritable s.xfer.d1 = true then .refused .wrongPhase
  else inPhase .copy s (copyG2d s)

/-- DMA.COPY.D2G (R169): the form of phase 7 with `dir = 1`. -/
def execDmaCopyD2g (s : State) : Host.Outcome State Fault Refusal :=
  if s.pc = .copy ∧ deviceWritable s.xfer.d1 = false then .refused .wrongPhase
  else inPhase .copy s (copyD2g s)

/-- DMA.ID (R190). -/
def execDmaId (s : State) : Host.Outcome State Fault Refusal := inPhase .id s (phaseId s)

/-- DMA.USED (R191). -/
def execDmaUsed (s : State) : Host.Outcome State Fault Refusal := inPhase .used s (phaseUsed s)

end Sys2Proof.Machine
end

