-- ==== Sys2Proof/Machine/Transfer.lean ====
section
/-! DEFINITION. The whole transfer as one function (spec/44_dma_transfer.md R160, R174): the sequential
composition of the phases inside the Queue Notify write. -/

namespace Sys2Proof.Machine

/-- Run a phase if the sequencer has reached it; after a BusFault or a DiskAbort the phases not yet executed
are skipped (R160 b, c). -/
def thenPhase (p : Phase) (f : State → State) (s : State) : State := if s.pc = p then f s else s

/-- One byte of the copy, in the direction `d1.flags[1]` gives (R167). -/
def copyStep (s : State) : State := if deviceWritable s.xfer.d1 then copyD2g s else copyG2d s

/-- The copy phase: at most `n` steps, as long as the sequencer stays in T_COPY (R167). -/
def copyLoop : Nat → State → State
  | 0, s => s
  | n + 1, s => if s.pc = .copy then copyLoop n (copyStep s) else s

/-- The whole of T_COPY: one step per byte and the one that ends the phase (R167). -/
def phaseCopy (s : State) : State := copyLoop (s.xfer.d1.length.toNat + 1) s

/-- A transfer from T_BASE to its end (R160, R174). -/
def transfer (s : State) : State :=
  thenPhase .used phaseUsed <| thenPhase .id phaseId <| thenPhase .copy phaseCopy <|
  thenPhase .sector phaseSector <| thenPhase .desc1 phaseDesc1 <| thenPhase .desc0 phaseDesc0 <|
  thenPhase .head phaseHead <| thenPhase .fill phaseFill <| thenPhase .base phaseBase s

/-- The part of the Queue Notify write before the transfer: the register update, `pc <- T_BASE`, and nothing
answered yet (R126). -/
def startTransfer (v : Word32) (s : State) : State := { setNotify v s with pc := .base, answer := .none }

/-- Whether the queue is configured (R261). -/
def queueConfigured (s : State) : Bool := s.qpfn != 0 && s.pgsz != 0

end Sys2Proof.Machine
end

