-- ==== Sys2Proof/Machine/SlaveWrite.lean ====
section
/-! DEFINITION. The register writes of port S (spec/41_mmio_write.md R120 to R130). -/

namespace Sys2Proof.Machine

/-- A wrong-size write, by BADSIZE_POLICY (R128): SizeFault of the transaction's address, or ignored. -/
def badsizeWrite (off : Word64) (s : State) : State :=
  match s.params.badsizePolicy with
  | .fault => raiseSizeFault .store (windowAddr s.params off) s
  | .zero => respondDone s

/-- WR.DEVFEAT (R121): stores x[DRVFEAT] if 0x010 is in DRVFEAT_WR_OFFSETS. -/
def execWrDevfeat (wdata : Word64) (s : State) : Host.Outcome State Fault Refusal :=
  atPort s (respondDone (if s.params.drvfeatAt010 then { s with drvfeat := writeValue wdata } else s))

/-- WR.DRVFEAT (R130): stores x[DRVFEAT] if 0x020 is in DRVFEAT_WR_OFFSETS. -/
def execWrDrvfeat (wdata : Word64) (s : State) : Host.Outcome State Fault Refusal :=
  atPort s (respondDone (if s.params.drvfeatAt020 then { s with drvfeat := writeValue wdata } else s))

/-- WR.PGSZ (R122). -/
def execWrPgsz (wdata : Word64) (s : State) : Host.Outcome State Fault Refusal :=
  atPort s (respondDone { s with pgsz := writeValue wdata })

/-- WR.QSEL (R123). -/
def execWrQsel (wdata : Word64) (s : State) : Host.Outcome State Fault Refusal :=
  atPort s (respondDone { s with qsel := writeValue wdata })

/-- WR.QNUM (R124). -/
def execWrQnum (wdata : Word64) (s : State) : Host.Outcome State Fault Refusal :=
  atPort s (respondDone { s with qnum := writeValue wdata })

/-- WR.QPFN (R125). -/
def execWrQpfn (wdata : Word64) (s : State) : Host.Outcome State Fault Refusal :=
  atPort s (respondDone { s with qpfn := writeValue wdata })

/-- WR.NOTIFY (R126): the register update, then one whole transfer, whose end answers the write. With the
queue not configured the write is refused (R261). -/
def execWrNotify (wdata : Word64) (s : State) : Host.Outcome State Fault Refusal :=
  if s.pc = .idle ∧ queueConfigured s = false then .refused .queueNotConfigured
  else atPort s (transfer (startTransfer (writeValue wdata) s))

/-- WR.STATUS (R127): stored verbatim; writing 0 clears nothing else (R251). -/
def execWrStatus (wdata : Word64) (s : State) : Host.Outcome State Fault Refusal :=
  atPort s (respondDone { s with status := writeValue wdata })

/-- WR.NOP (R129). -/
def execWrNop (_off _wdata : Word64) (s : State) : Host.Outcome State Fault Refusal := atPort s (respondDone s)

/-- WR.BADSIZE.B (R128). -/
def execWrBadsizeB (off _wdata : Word64) (s : State) : Host.Outcome State Fault Refusal :=
  atPort s (badsizeWrite off s)

/-- WR.BADSIZE.H (R128). -/
def execWrBadsizeH (off _wdata : Word64) (s : State) : Host.Outcome State Fault Refusal :=
  atPort s (badsizeWrite off s)

/-- WR.BADSIZE.D (R128). -/
def execWrBadsizeD (off _wdata : Word64) (s : State) : Host.Outcome State Fault Refusal :=
  atPort s (badsizeWrite off s)

end Sys2Proof.Machine
end

