-- ==== Sys2Proof/Machine/Dispatch.lean ====
section
/-! DEFINITION. One arm per operation of spec/opcode_table.json, in the table's order. -/

namespace Sys2Proof.Machine

def exec (i : Instr) (s : State) : Host.Outcome State Fault Refusal :=
  match i with
  | .rdMagic => Sys2Proof.Machine.execRdMagic s
  | .rdVersion => Sys2Proof.Machine.execRdVersion s
  | .rdDevid => Sys2Proof.Machine.execRdDevid s
  | .rdVendor => Sys2Proof.Machine.execRdVendor s
  | .rdDevfeat => Sys2Proof.Machine.execRdDevfeat s
  | .rdDrvfeat => Sys2Proof.Machine.execRdDrvfeat s
  | .rdQnummax => Sys2Proof.Machine.execRdQnummax s
  | .rdQpfn => Sys2Proof.Machine.execRdQpfn s
  | .rdStatus => Sys2Proof.Machine.execRdStatus s
  | .rdZero off => Sys2Proof.Machine.execRdZero off s
  | .wrDevfeat wdata => Sys2Proof.Machine.execWrDevfeat wdata s
  | .wrDrvfeat wdata => Sys2Proof.Machine.execWrDrvfeat wdata s
  | .wrPgsz wdata => Sys2Proof.Machine.execWrPgsz wdata s
  | .wrQsel wdata => Sys2Proof.Machine.execWrQsel wdata s
  | .wrQnum wdata => Sys2Proof.Machine.execWrQnum wdata s
  | .wrQpfn wdata => Sys2Proof.Machine.execWrQpfn wdata s
  | .wrNotify wdata => Sys2Proof.Machine.execWrNotify wdata s
  | .wrStatus wdata => Sys2Proof.Machine.execWrStatus wdata s
  | .wrNop off wdata => Sys2Proof.Machine.execWrNop off wdata s
  | .rdBadsizeB off => Sys2Proof.Machine.execRdBadsizeB off s
  | .rdBadsizeH off => Sys2Proof.Machine.execRdBadsizeH off s
  | .rdBadsizeD off => Sys2Proof.Machine.execRdBadsizeD off s
  | .wrBadsizeB off wdata => Sys2Proof.Machine.execWrBadsizeB off wdata s
  | .wrBadsizeH off wdata => Sys2Proof.Machine.execWrBadsizeH off wdata s
  | .wrBadsizeD off wdata => Sys2Proof.Machine.execWrBadsizeD off wdata s
  | .irqQuery => Sys2Proof.Machine.execIrqQuery s
  | .diskInit image => Sys2Proof.Machine.execDiskInit image s
  | .reset => Sys2Proof.Machine.execReset s
  | .dmaBase => Sys2Proof.Machine.execDmaBase s
  | .dmaFill => Sys2Proof.Machine.execDmaFill s
  | .dmaHead => Sys2Proof.Machine.execDmaHead s
  | .dmaDesc0 => Sys2Proof.Machine.execDmaDesc0 s
  | .dmaDesc1 => Sys2Proof.Machine.execDmaDesc1 s
  | .dmaSector => Sys2Proof.Machine.execDmaSector s
  | .dmaCopyG2d => Sys2Proof.Machine.execDmaCopyG2d s
  | .dmaCopyD2g => Sys2Proof.Machine.execDmaCopyD2g s
  | .dmaId => Sys2Proof.Machine.execDmaId s
  | .dmaUsed => Sys2Proof.Machine.execDmaUsed s
  | .descRead a => Sys2Proof.Machine.execDescRead a s
  | .diskRdb off => Sys2Proof.Machine.execDiskRdb off s
  | .diskWrb off b => Sys2Proof.Machine.execDiskWrb off b s

end Sys2Proof.Machine
end

