-- ==== Sys2Proof/Machine/Fetch.lean ====
section
/-! DEFINITION. What the next step does (spec/00_scope.md R4, spec/10_state.md R20, spec/60_exceptions.md R211,
R232, R233): in DEAD nothing; in a phase the operation that `dir ++ pc` selects; in IDLE the next request of the
environment, if there is one. -/

namespace Sys2Proof.Machine

/-- What the device is presented with. -/
inductive Fetched where
  /-- `pc` is DEAD: nothing is answered (R211) -/
  | dead
  /-- no operation of the device is due; the state after it (R232, R72 step 1) -/
  | quiet (s : State)
  /-- the operation to run, and the state it runs in -/
  | operation (i : Instr) (s : State)
  /-- a code that is no operation -/
  | illegal (e : DecodeError)
  deriving DecidableEq, Repr

/-- The state with the first request taken out of the inbox. -/
def takeEvent (rest : List Event) (s : State) : State := { s with inbox := rest }

/-- The state with a slave-port transaction taken: the run has started (decision D22). -/
def takeSlave (rest : List Event) (s : State) : State := { s with inbox := rest, running := true }

/-- The next request in IDLE. A transaction whose address is outside the window is not the device's (R72 step
1, log 27); a store of the driver writes guest memory and stands on the record of the bus (R51 a, log 14). -/
def fetchEvent (s : State) : List Event → Fetched
  | [] => .quiet s
  | .slave we size addr wdata :: rest =>
    match decodeTransaction s.params we size addr wdata with
    | .ok i => .operation i (takeSlave rest s)
    | .error _ => .quiet (takeEvent rest s)
  | .port code image :: rest =>
    match decodePort code image with
    | .ok i => .operation i (takeEvent rest s)
    | .error e => .illegal e
  | .guestStore addr bytes :: rest =>
    .quiet (accessed (.driver addr bytes) (writeBytes s.mem addr bytes) (takeEvent rest s))

/-- What the next step does. -/
def fetch (s : State) : Fetched :=
  match s.pc with
  | .dead => .dead
  | .idle => fetchEvent s s.inbox
  | _ =>
    match decodeSeq (seqWord s) with
    | .ok i => .operation i s
    | .error e => .illegal e

/-- The state in which a code is what the next step runs (log 22, log 23): a transaction or a port operation is
the first request of the inbox of an idle device, a phase word sets `pc` and the direction bit of descriptor
#1. -/
def presentCode (s : State) : Code → State
  | .slave op =>
    { s with pc := .idle, inbox := .slave op.we op.size (windowAddr s.params op.off) op.wdata :: s.inbox }
  | .port code image => { s with pc := .idle, inbox := .port code image :: s.inbox }
  | .seq word =>
    match phaseOfCode (word.extractLsb' 0 4) with
    | none => s
    | some p =>
      let d1 := { s.xfer.d1 with flags := if word.getLsbD 4 then 2 else 0 }
      { s with pc := p, xfer := { s.xfer with d1 := d1 } }

/-- `presentCode` for a word of the opcode table; a word that is no code changes nothing. -/
def presentTableWord (s : State) (nbits w : Nat) : State :=
  match tableCode nbits w with
  | some c => presentCode s c
  | none => s

end Sys2Proof.Machine
end

