-- ==== Sys2Proof/Machine/Step.lean ====
section
/-! DEFINITION. One step: what `fetch` finds is run by `exec`. -/

namespace Sys2Proof.Machine

/-- One step of the device: one request of a port with its whole effect (R4), or one sequencer operation. -/
def step (s : State) : Host.Outcome State Fault Refusal :=
  match fetch s with
  | .dead => .fault .dead
  | .quiet t => .next t
  | .operation i t => exec i t
  | .illegal _ => .refused .unusedPortCode

/-- The state whose next step runs the operation of an opcode-table word. -/
def State.withFetchWord (s : State) (nbits w : Nat) : State := presentTableWord s nbits w

end Sys2Proof.Machine
end

