-- ==== Sys2Proof/Safety.lean ====
section
/-! DEFINITION. The terms claims use: what a run keeps, what the driver must respect before a notify
(spec/70_reset_and_hazards.md R252, R261, R262, R266), and what a transfer reads and touches, said of the state
at the notify (spec/20_memory.md R40, R45; spec/44_dma_transfer.md R161 to R169). -/

namespace Sys2Proof.Safety

open Sys2Proof.Machine

/-! ## What every step keeps -/

/-- Every request finds `pc` IDLE or DEAD (R20). -/
def Settled (s : State) : Prop := s.pc = .idle ∨ s.pc = .dead

/-- The invariant of the machine: guest memory in canonical form, `pc` settled, x[ID] below 2^ID_WIDTH (R12),
and no transient value left in IDLE (R21). -/
def Inv (s : State) : Prop :=
  s.mem.wf = true ∧ Settled s ∧ s.id < 2 ^ s.params.idWidth ∧ (s.pc = .idle → s.xfer = .blank)

/-! ## How the bus answers an access of the engine -/

/-- Ordinary memory completes an access of `n` bytes: it is outside the device's own window, no byte is in a region
of kind `device`, and memory accepts it (log 5). -/
def serves (s : State) (a : Addr) (n : Nat) : Bool :=
  !addrInWindow s.params a && !touchesDevice s.regions a n && memoryAccepts s.regions a n

/-- The bus refuses an access of `n` bytes: it is outside the window, no byte is in a `device` region, and memory
does not accept it; guest memory is as before then (log 5). -/
def refuses (s : State) (a : Addr) (n : Nat) : Bool :=
  !addrInWindow s.params a && !touchesDevice s.regions a n && !memoryAccepts s.regions a n

/-- Whether an access has a byte in a region of kind `device`, outside the window: there guest memory is the bus's
to change (R44, log 6). -/
def onDevice (s : State) : BusAccess → Bool
  | .load a n => !addrInWindow s.params a && touchesDevice s.regions a n.bytes
  | .store a bytes => !addrInWindow s.params a && touchesDevice s.regions a bytes.length
  | .driver _ _ => false

/-- Memory completes every read of a descriptor at an address (R150). -/
def servesPlan (s : State) : List Size → Addr → Bool
  | [], _ => true
  | n :: plan, a => serves s a n.bytes && servesPlan s plan (a + BitVec.ofNat 64 n.bytes)

/-- The bus answers every read of a plan with data, from an address on (R44, R150): the bytes in all, and the state
after the reads, which differs in guest memory and the record of the bus only; `none` if it refuses one. -/
def planAnswers (s : State) : List Size → Addr → Option (List Byte × State)
  | [], _ => some ([], s)
  | n :: plan, a =>
    match busRead s a n with
    | (none, _) => none
    | (some bytes, m) =>
      match planAnswers { s with mem := m, busLog := .load a n :: s.busLog } plan (a + BitVec.ofNat 64 n.bytes) with
      | none => none
      | some (raw, t) => some (bytes ++ raw, t)

/-- How many bytes a read plan fetches; DESC_READ_PLAN fetches 16 (R150). -/
def planBytes : List Size → Nat
  | [] => 0
  | n :: plan => n.bytes + planBytes plan

/-- Memory completes the first `n` one-byte accesses of the data buffer. -/
def servesBuffer (s : State) (d1 : Desc) (n : Nat) : Prop :=
  ∀ k, k < n → serves s (d1.address + BitVec.ofNat 64 k) 1 = true

/-! ## The chain a notify selects, read from guest memory -/

/-- `fill`, as T_FILL reads it (R162). -/
def chainFill (s : State) : BitVec 16 :=
  leField 16 (readBytes s.mem (fillAddr s.params (availAddr (descTableAddress s))) 2)

/-- Where T_HEAD reads (R163). -/
def chainSlotAddr (s : State) : Addr :=
  slotAddr s.params (availAddr (descTableAddress s)) (slotOf (chainFill s))

/-- `head`, as T_HEAD reads it (R163). -/
def chainHead (s : State) : BitVec 16 := leField 16 (readBytes s.mem (chainSlotAddr s) 2)

/-- Where descriptor #0 stands (R164). -/
def chainD0Addr (s : State) : Addr := descAddr (descTableAddress s) (chainHead s)

/-- Descriptor #0, the request header's (R164). -/
def chainD0 (s : State) : Desc := descOfBytes (readBytes s.mem (chainD0Addr s) 16)

/-- Where descriptor #1 stands (R165). -/
def chainD1Addr (s : State) : Addr := descAddr (descTableAddress s) (chainD0 s).next

/-- Descriptor #1, the data buffer's (R165). -/
def chainD1 (s : State) : Desc := descOfBytes (readBytes s.mem (chainD1Addr s) 16)

/-- The target sector (R166). -/
def chainSector (s : State) : Word64 := leField 64 (readBytes s.mem (sectorAddr (chainD0 s)) 8)

/-- The disk offset of the first byte (R167). -/
def chainDiskOffset (s : State) : Nat := (chainSector s).toNat * 512

/-- The length of the data buffer (R167). -/
def chainLength (s : State) : Nat := (chainD1 s).length.toNat

/-- The request's disk range lies inside the disk (R262). -/
def InBounds (s : State) : Prop := chainLength s = 0 ∨ chainDiskOffset s + chainLength s ≤ s.disk.length

/-- The queue is configured, the sequencer is idle, and memory completes every read before the copy (R252). -/
def Ready (s : State) : Prop :=
  s.pc = .idle ∧ s.qpfn ≠ 0 ∧ s.pgsz ≠ 0 ∧ planBytes s.params.descReadPlan = 16 ∧
  serves s (fillAddr s.params (availAddr (descTableAddress s))) 2 = true ∧
  serves s (chainSlotAddr s) 2 = true ∧
  servesPlan s s.params.descReadPlan (chainD0Addr s) = true ∧
  servesPlan s s.params.descReadPlan (chainD1Addr s) = true ∧
  serves s (sectorAddr (chainD0 s)) 8 = true

/-- The bus refuses the first read before the copy that memory does not complete, and that read is at `a`: the
fill index, the ring slot, one of the reads of a descriptor, or the sector (R172, first row; R225). -/
def ChainRefusedAt (s : State) (a : Addr) : Prop :=
  let fillAt := fillAddr s.params (availAddr (descTableAddress s))
  let plan := s.params.descReadPlan
  (a = fillAt ∧ refuses s a 2 = true) ∨
  (serves s fillAt 2 = true ∧ a = chainSlotAddr s ∧ refuses s a 2 = true) ∨
  (serves s fillAt 2 = true ∧ serves s (chainSlotAddr s) 2 = true ∧
    ∃ before after n, plan = before ++ n :: after ∧ servesPlan s before (chainD0Addr s) = true ∧
      a = chainD0Addr s + BitVec.ofNat 64 (planBytes before) ∧ refuses s a n.bytes = true) ∨
  (serves s fillAt 2 = true ∧ serves s (chainSlotAddr s) 2 = true ∧ planBytes plan = 16 ∧
    servesPlan s plan (chainD0Addr s) = true ∧
    ∃ before after n, plan = before ++ n :: after ∧ servesPlan s before (chainD1Addr s) = true ∧
      a = chainD1Addr s + BitVec.ofNat 64 (planBytes before) ∧ refuses s a n.bytes = true) ∨
  (serves s fillAt 2 = true ∧ serves s (chainSlotAddr s) 2 = true ∧ planBytes plan = 16 ∧
    servesPlan s plan (chainD0Addr s) = true ∧ servesPlan s plan (chainD1Addr s) = true ∧
    a = sectorAddr (chainD0 s) ∧ refuses s a 8 = true)

/-- Where the used-ring field is written (R191). -/
def usedField (s : State) : Addr := usedFieldAddr (usedAddr (descTableAddress s))

/-! ## The accesses of a transfer, in the order of R45 -/

/-- The reads of one descriptor (R150). -/
def planAccesses : List Size → Addr → List BusAccess
  | [], _ => []
  | n :: plan, a => .load a n :: planAccesses plan (a + BitVec.ofNat 64 n.bytes)

/-- The accesses before the copy: rows 1 to 11 of R45. -/
def chainAccesses (s : State) : List BusAccess :=
  [.load (fillAddr s.params (availAddr (descTableAddress s))) .h, .load (chainSlotAddr s) .h] ++
  planAccesses s.params.descReadPlan (chainD0Addr s) ++
  planAccesses s.params.descReadPlan (chainD1Addr s) ++
  [.load (sectorAddr (chainD0 s)) .d]

/-- The reads of the first `n` bytes of the data buffer, ascending (R168). -/
def bufferLoads (a : Addr) : Nat → List BusAccess
  | 0 => []
  | n + 1 => .load a .b :: bufferLoads (a + 1) n

/-- The writes of these bytes to the data buffer, ascending (R169). -/
def bufferStores (a : Addr) : List Byte → List BusAccess
  | [] => []
  | b :: rest => .store a [b] :: bufferStores (a + 1) rest

/-- Whether an access is a store that covers an address; its bytes wrap at 2^64 (R41, R52). -/
def stores (acc : BusAccess) (x : Addr) : Prop :=
  match acc with
  | .load _ _ => False
  | .store a bytes => (x - a).toNat < bytes.length
  | .driver a bytes => (x - a).toNat < bytes.length

/-- `n` bytes of the disk from the request's offset on. -/
def diskSlice (s : State) (n : Nat) : List Byte := (s.disk.drop (chainDiskOffset s)).take n

/-- The disk with bytes laid over it from the request's offset on. -/
def diskOverlay (s : State) (bytes : List Byte) : List Byte :=
  s.disk.take (chainDiskOffset s) ++ bytes ++ s.disk.drop (chainDiskOffset s + bytes.length)

/-- The state in which a transfer that read its chain stands when it ends, whatever it moved: the register
update of the notify write is done, and the accesses issued stand on the record of port M (R126, R172). -/
def afterChain (v : Word64) (accesses : List BusAccess) (s : State) : State :=
  { setNotify (writeValue v) s with busLog := accesses.reverse ++ s.busLog }

end Sys2Proof.Safety
end

