-- ==== Sys2Proof/Certificates/Slice0/Obligations.lean ====
section
/-! DEFINITION. The statements for the provers. Each docstring names the rule of spec/ it formalises. A
conclusion `exec i s = .next t` with `t` written as an update of `s` also says the frame: every register, flag,
byte of guest memory and byte of the disk that the update does not name is as before. -/

open Sys2Proof Sys2Proof.Machine Sys2Proof.Safety

/-! ## Reset and invariants -/

/-- R35, R250: what creation leaves. x[NOTIFY].value and the transient values are left out: the spec gives them
no value (log 10, log 18). -/
def Obligations.ResetLeavesRegistersZeroAndIdle : Prop :=
  State.reset.id = State.reset.params.idReset ∧ State.reset.drvfeat = 0 ∧ State.reset.pgsz = 0 ∧
  State.reset.qsel = 0 ∧ State.reset.qnum = 0 ∧ State.reset.qpfn = 0 ∧ State.reset.notifyValid = false ∧
  State.reset.status = 0 ∧ State.reset.pc = .idle ∧ State.reset.disk = [] ∧ irqLevel State.reset = false

/-- The invariant holds at reset. -/
def Obligations.ResetSatisfiesInvariant : Prop := Inv State.reset

/-- R12, R20, R21: every step keeps guest memory canonical, `pc` IDLE or DEAD between requests, x[ID] below
2^ID_WIDTH, and the transient values gone in IDLE. -/
def Obligations.EveryStepKeepsInvariant : Prop :=
  ∀ s t : State, Inv s → step s = .next t → Inv t

/-- R3: no step changes a parameter, nor the map of the bus. -/
def Obligations.EveryStepKeepsParametersAndBusMap : Prop :=
  ∀ s t : State, step s = .next t → t.params = s.params ∧ t.regions = s.regions

/-- R203: from the first slave-port transaction on the length of the disk does not change. -/
def Obligations.RunningStepsKeepDiskLength : Prop :=
  ∀ s t : State, s.running = true → step s = .next t → t.running = true ∧ t.disk.length = s.disk.length

/-! ## Register reads -/

/-- R100, R101, R102, R103, R104, R107: the constant reads, their selector words, and the writes at the
read-only offsets, which are WR.NOP. -/
def Obligations.ConstantReadsAnswerTheirConstants : Prop :=
  (∀ s : State, s.pc = .idle →
    exec .rdMagic s = .next { s with answer := .rdata (s.params.magicValue.setWidth 64) } ∧
    exec .rdVersion s = .next { s with answer := .rdata 1 } ∧
    exec .rdDevid s = .next { s with answer := .rdata 2 } ∧
    exec .rdVendor s = .next { s with answer := .rdata (s.params.vendorIdValue.setWidth 64) } ∧
    exec .rdDevfeat s = .next { s with answer := .rdata 0 } ∧
    exec .rdQnummax s = .next { s with answer := .rdata 8 }) ∧
  (∀ v : Word64,
    decodeSelector 0x4000 v = .ok .rdMagic ∧ decodeSelector 0x5000 v = .ok (.wrNop 0x000 v) ∧
    decodeSelector 0x4004 v = .ok .rdVersion ∧ decodeSelector 0x5004 v = .ok (.wrNop 0x004 v) ∧
    decodeSelector 0x4008 v = .ok .rdDevid ∧ decodeSelector 0x5008 v = .ok (.wrNop 0x008 v) ∧
    decodeSelector 0x400C v = .ok .rdVendor ∧ decodeSelector 0x500C v = .ok (.wrNop 0x00C v) ∧
    decodeSelector 0x4010 v = .ok .rdDevfeat ∧
    decodeSelector 0x4034 v = .ok .rdQnummax ∧ decodeSelector 0x5034 v = .ok (.wrNop 0x034 v))

/-- R106, R108, R109: the reads that answer a stored register. -/
def Obligations.StoredReadsAnswerTheRegister : Prop :=
  ∀ s : State, s.pc = .idle →
    exec .rdDrvfeat s = .next { s with answer := .rdata (s.drvfeat.setWidth 64) } ∧
    exec .rdQpfn s = .next { s with answer := .rdata (s.qpfn.setWidth 64) } ∧
    exec .rdStatus s = .next { s with answer := .rdata (s.status.setWidth 64) }

/-- R110: every offset without a read row decodes to RD.ZERO, every selector word 0x4000 under mask 0xF000 with
such an offset too, and the read answers 0. -/
def Obligations.ReadsElsewhereAnswerZero : Prop :=
  ∀ off : Word64, off ∉ readSet →
    decodeRead off = .rdZero off ∧
    (∀ (sel : BitVec 16) (v : Word64), sel &&& 0xF000 = 0x4000 → (sel &&& 0x0FFF).setWidth 64 = off →
      decodeSelector sel v = .ok (.rdZero off)) ∧
    ∀ s : State, s.pc = .idle → exec (.rdZero off) s = .next { s with answer := .rdata 0 }

/-- R26, R105: a 4-byte read at any offset changes nothing but the answer, and answers the same when repeated. -/
def Obligations.ReadsAreIdempotent : Prop :=
  ∀ (off : Word64) (s : State), s.pc = .idle →
    ∃ v : Word32, exec (decodeRead off) s = .next { s with answer := .rdata (v.setWidth 64) } ∧
      exec (decodeRead off) { s with answer := .rdata (v.setWidth 64) } =
        .next { s with answer := .rdata (v.setWidth 64) }

/-- R111, R128, R212: the six wrong-size accesses, decoded whatever the offset, under both policies. -/
def Obligations.WrongSizeAccessesFaultOrAreIgnored : Prop :=
  ∀ (off wdata : Word64) (s : State), s.pc = .idle →
    (decodeSlave ⟨false, .b, off, wdata⟩ = .rdBadsizeB off ∧
      decodeSlave ⟨false, .h, off, wdata⟩ = .rdBadsizeH off ∧
      decodeSlave ⟨false, .d, off, wdata⟩ = .rdBadsizeD off ∧
      decodeSlave ⟨true, .b, off, wdata⟩ = .wrBadsizeB off wdata ∧
      decodeSlave ⟨true, .h, off, wdata⟩ = .wrBadsizeH off wdata ∧
      decodeSlave ⟨true, .d, off, wdata⟩ = .wrBadsizeD off wdata) ∧
    (s.params.badsizePolicy = .fault →
      (∀ i ∈ [Instr.rdBadsizeB off, .rdBadsizeH off, .rdBadsizeD off],
        exec i s = .next { s with
          answer := .sizeFault .load (s.params.virtioBase + off) s.params.loadFaultCode }) ∧
      (∀ i ∈ [Instr.wrBadsizeB off wdata, .wrBadsizeH off wdata, .wrBadsizeD off wdata],
        exec i s = .next { s with
          answer := .sizeFault .store (s.params.virtioBase + off) s.params.storeFaultCode })) ∧
    (s.params.badsizePolicy = .zero →
      (∀ i ∈ [Instr.rdBadsizeB off, .rdBadsizeH off, .rdBadsizeD off],
        exec i s = .next { s with answer := .rdata 0 }) ∧
      (∀ i ∈ [Instr.wrBadsizeB off wdata, .wrBadsizeH off wdata, .wrBadsizeD off wdata],
        exec i s = .next { s with answer := .done }))

/-! ## Register writes -/

/-- R122, R123, R124, R125, R127: the writes that store `wdata[31:0]`, each into its one register; a Status
write of 0 clears nothing else (R251). -/
def Obligations.RegisterWritesStoreTheLowWord : Prop :=
  ∀ (v : Word64) (s : State), s.pc = .idle →
    exec (.wrPgsz v) s = .next { s with pgsz := v.setWidth 32, answer := .done } ∧
    exec (.wrQsel v) s = .next { s with qsel := v.setWidth 32, answer := .done } ∧
    exec (.wrQnum v) s = .next { s with qnum := v.setWidth 32, answer := .done } ∧
    exec (.wrQpfn v) s = .next { s with qpfn := v.setWidth 32, answer := .done } ∧
    exec (.wrStatus v) s = .next { s with status := v.setWidth 32, answer := .done }

/-- R121, R130: the writes at the two feature offsets store x[DRVFEAT] exactly where DRVFEAT_WR_OFFSETS says. -/
def Obligations.FeatureWritesFollowTheWriteOffsets : Prop :=
  ∀ (v : Word64) (s : State), s.pc = .idle →
    decodeSelector 0x5010 v = .ok (.wrDevfeat v) ∧ decodeSelector 0x5020 v = .ok (.wrDrvfeat v) ∧
    exec (.wrDevfeat v) s = .next { s with
      drvfeat := if s.params.drvfeatAt010 then v.setWidth 32 else s.drvfeat, answer := .done } ∧
    exec (.wrDrvfeat v) s = .next { s with
      drvfeat := if s.params.drvfeatAt020 then v.setWidth 32 else s.drvfeat, answer := .done }

/-- R129: every offset without a write row decodes to WR.NOP, every selector word 0x5000 under mask 0xF000 with
such an offset too, and the write changes nothing. -/
def Obligations.WritesElsewhereChangeNothing : Prop :=
  ∀ off v : Word64, off ∉ writeSet →
    decodeWrite off v = .wrNop off v ∧
    (∀ sel : BitVec 16, sel &&& 0xF000 = 0x5000 → (sel &&& 0x0FFF).setWidth 64 = off →
      decodeSelector sel v = .ok (.wrNop off v)) ∧
    ∀ s : State, s.pc = .idle → exec (.wrNop off v) s = .next { s with answer := .done }

/-- R26, R120: the Queue PFN, Status and (at a write offset of DRVFEAT_WR_OFFSETS) Driver Features registers
read back the last written 32-bit value. -/
def Obligations.WrittenRegistersReadBack : Prop :=
  ∀ (v : Word64) (s t : State), s.pc = .idle →
    (exec (.wrQpfn v) s = .next t →
      exec .rdQpfn t = .next { t with answer := .rdata ((v.setWidth 32).setWidth 64) }) ∧
    (exec (.wrStatus v) s = .next t →
      exec .rdStatus t = .next { t with answer := .rdata ((v.setWidth 32).setWidth 64) }) ∧
    (s.params.drvfeatAt010 = true → exec (.wrDevfeat v) s = .next t →
      exec .rdDrvfeat t = .next { t with answer := .rdata ((v.setWidth 32).setWidth 64) }) ∧
    (s.params.drvfeatAt020 = true → exec (.wrDrvfeat v) s = .next t →
      exec .rdDrvfeat t = .next { t with answer := .rdata ((v.setWidth 32).setWidth 64) })

/-! ## The interrupt -/

/-- R140: the query returns the pending bit and clears it; x[NOTIFY].value stays. No transaction of port S is a
query, and in DEAD it is not answered. -/
def Obligations.QueryReturnsAndClearsPending : Prop :=
  (∀ image : List Byte, decodePort 0 image = .ok .irqQuery) ∧ (∀ op : SlaveOp, decodeSlave op ≠ .irqQuery) ∧
  ∀ s : State,
    (s.pc = .idle → exec .irqQuery s = .next { s with notifyValid := false, answer := .query s.notifyValid }) ∧
    (s.pc = .dead → exec .irqQuery s = .fault .dead)

/-- R126, R141, R223: a notify that leaves the device IDLE makes the next query return 1, if its value is not
the sentinel, and the query after that return 0; a notify of the sentinel leaves what was pending. -/
def Obligations.PendingIsReportedOncePerNotify : Prop :=
  ∀ (v : Word64) (s t : State), exec (.wrNotify v) s = .next t → t.pc = .idle →
    t.notifyValid = (s.notifyValid || decide (s.params.notifySentinel ≠ some (v.setWidth 32))) ∧
    ∃ q r : State,
      exec .irqQuery t = .next q ∧ q.answer = .query t.notifyValid ∧
      exec .irqQuery q = .next r ∧ r.answer = .query false

/-- R220, R221: the `irq` output is the pending bit, and the line it drives has the number VIRTIO_IRQ. -/
def Obligations.InterruptLineFollowsThePendingBit : Prop :=
  ∀ s : State, irqLevel s = s.notifyValid ∧ (irqLine s = some s.params.virtioIrq ↔ s.notifyValid = true)

/-- R22, R220: the pending bit, which is the `irq` level, rises on a Queue Notify write only and falls on the
query (or on creation, which resets it) only. -/
def Obligations.OnlyNotifyQueryAndResetMovePending : Prop :=
  ∀ (i : Instr) (s t : State), exec i s = .next t → irqLevel t ≠ irqLevel s →
    ((∃ v, i = .wrNotify v) ∧ irqLevel t = true) ∨ ((i = .irqQuery ∨ i = .reset) ∧ irqLevel t = false)

/-! ## Ports of the host -/

/-- R200, R233: DISK.INIT appends the image before the run and is refused during it. -/
def Obligations.DiskInitAppendsBeforeTheRun : Prop :=
  ∀ (image : List Byte) (s : State), s.pc = .idle →
    (s.running = false → exec (.diskInit image) s = .next { s with disk := s.disk ++ image, answer := .done }) ∧
    (s.running = true → exec (.diskInit image) s = .refused .runStarted)

/-- R250, R35: RESET before the run puts every register, `pc` and the disk at the value after creation, whatever
they held, and leaves the parameters and the guest memory; during the run it is refused (R233). That it sets
x[NOTIFY].value and the transient values to 0 is the model's choice (log 10, log 18), and so is what it leaves
of the environment (log 33). -/
def Obligations.CreationPutsEveryRegisterAtItsResetValue : Prop :=
  ∀ s : State, s.pc = .idle →
    (s.running = false → exec .reset s = .next { s with
      id := s.params.idReset % 2 ^ s.params.idWidth, drvfeat := 0, pgsz := 0, qsel := 0, qnum := 0, qpfn := 0,
      notifyValid := false, notifyValue := 0, status := 0, pc := .idle, xfer := .blank, disk := [],
      answer := .done }) ∧
    (s.running = true → exec .reset s = .refused .runStarted)

/-! ## Sequencer phases -/

/-- R17, R161, R52: DMA.BASE computes the three addresses, and none of the sums wraps. -/
def Obligations.BasePhaseComputesTheRegionAddresses : Prop :=
  ∀ s : State, s.pc = .base →
    ∃ base avail used : Addr,
      base.toNat = s.qpfn.toNat * s.pgsz.toNat ∧ avail.toNat = base.toNat + 0x40 ∧
      used.toNat = base.toNat + 4096 ∧
      exec .dmaBase s = .next { s with
        pc := .fill, xfer := { s.xfer with base := base, avail := avail, used := used } }

/-- R162: DMA.FILL reads 2 bytes at `avail + AVAIL_IDX_OFF`; a refused read is a BusFault (R210). -/
def Obligations.FillPhaseReadsIndexAndSlot : Prop :=
  ∀ s : State, s.pc = .fill →
    (serves s (s.xfer.avail + s.params.availIdxOff) 2 = true →
      ∃ (fill : BitVec 16) (slot : BitVec 3),
        fill.toNat = (readByte s.mem (s.xfer.avail + s.params.availIdxOff).toNat).toNat +
          256 * (readByte s.mem (s.xfer.avail + s.params.availIdxOff + 1).toNat).toNat ∧
        slot.toNat = fill.toNat % 8 ∧
        exec .dmaFill s = .next { s with
          pc := .head, xfer := { s.xfer with fill := fill, slot := slot },
          busLog := .load (s.xfer.avail + s.params.availIdxOff) .h :: s.busLog }) ∧
    (refuses s (s.xfer.avail + s.params.availIdxOff) 2 = true →
      exec .dmaFill s = .next { s with
        pc := .idle, xfer := .blank,
        answer := .busFault .load (s.xfer.avail + s.params.availIdxOff) s.params.loadFaultCode,
        busLog := .load (s.xfer.avail + s.params.availIdxOff) .h :: s.busLog })

/-- R163: DMA.HEAD reads 2 bytes at `avail + AVAIL_RING_OFF + AVAIL_SLOT_STRIDE * slot`. -/
def Obligations.HeadPhaseReadsTheSlot : Prop :=
  ∀ (s : State) (a : Addr), s.pc = .head →
    a = s.xfer.avail + s.params.availRingOff + s.params.availSlotStride * s.xfer.slot.setWidth 64 →
    (serves s a 2 = true →
      ∃ head : BitVec 16,
        head.toNat = (readByte s.mem a.toNat).toNat + 256 * (readByte s.mem (a + 1).toNat).toNat ∧
        exec .dmaHead s = .next { s with
          pc := .desc0, xfer := { s.xfer with head := head }, busLog := .load a .h :: s.busLog }) ∧
    (refuses s a 2 = true →
      exec .dmaHead s = .next { s with
        pc := .idle, xfer := .blank, answer := .busFault .load a s.params.loadFaultCode,
        busLog := .load a .h :: s.busLog })

/-- R164, R165, R151: DMA.DESC0 and DMA.DESC1 read the 16 bytes of entry `head` and of entry `d0.next` of the
table, whatever the read plan; neither index is reduced. -/
def Obligations.DescriptorPhasesReadTheTableEntries : Prop :=
  ∀ (s : State) (a : Addr), planBytes s.params.descReadPlan = 16 →
    (s.pc = .desc0 → a = s.xfer.base + BitVec.ofNat 64 (16 * s.xfer.head.toNat) →
      servesPlan s s.params.descReadPlan a = true →
      exec .dmaDesc0 s = .next { s with
        pc := .desc1, xfer := { s.xfer with d0 := descOfBytes (readBytes s.mem a 16) },
        busLog := (planAccesses s.params.descReadPlan a).reverse ++ s.busLog }) ∧
    (s.pc = .desc1 → a = s.xfer.base + BitVec.ofNat 64 (16 * s.xfer.d0.next.toNat) →
      servesPlan s s.params.descReadPlan a = true →
      exec .dmaDesc1 s = .next { s with
        pc := .sector, xfer := { s.xfer with d1 := descOfBytes (readBytes s.mem a 16) },
        busLog := (planAccesses s.params.descReadPlan a).reverse ++ s.busLog })

/-- R166, R167: DMA.SECTOR reads 8 bytes at `d0.address + 8`. That it also sets the byte counter to 0 is the model's
placement (log 9, DEDUCED): R167 clears `i` at the start of T_COPY. -/
def Obligations.SectorPhaseReadsTheHeaderField : Prop :=
  ∀ (s : State) (a : Addr), s.pc = .sector → a = s.xfer.d0.address + 8 →
    (serves s a 8 = true →
      exec .dmaSector s = .next { s with
        pc := .copy, xfer := { s.xfer with sector := BitVec.ofNat 64 (leNat (readBytes s.mem a 8)), i := 0 },
        busLog := .load a .d :: s.busLog }) ∧
    (refuses s a 8 = true →
      exec .dmaSector s = .next { s with
        pc := .idle, xfer := .blank, answer := .busFault .load a s.params.loadFaultCode,
        busLog := .load a .d :: s.busLog })

/-- R168: one step of DMA.COPY.G2D. The guest byte is read first, so a BusFault precedes a DiskAbort. -/
def Obligations.CopyGuestToDiskMovesOneByte : Prop :=
  ∀ (s : State) (a : Addr) (off : Nat), s.pc = .copy → s.xfer.d1.flags.getLsbD 1 = false →
    a = s.xfer.d1.address + s.xfer.i.setWidth 64 → off = s.xfer.sector.toNat * 512 + s.xfer.i.toNat →
    (s.xfer.i.toNat < s.xfer.d1.length.toNat → serves s a 1 = true → off < s.disk.length →
      exec .dmaCopyG2d s = .next { s with
        disk := s.disk.set off (readByte s.mem a.toNat), xfer := { s.xfer with i := s.xfer.i + 1 },
        busLog := .load a .b :: s.busLog }) ∧
    (s.xfer.i.toNat < s.xfer.d1.length.toNat → serves s a 1 = true → s.disk.length ≤ off →
      exec .dmaCopyG2d s = .next { s with
        pc := .dead, answer := .noAnswer off, busLog := .load a .b :: s.busLog }) ∧
    (s.xfer.i.toNat < s.xfer.d1.length.toNat → refuses s a 1 = true →
      exec .dmaCopyG2d s = .next { s with
        pc := .idle, xfer := .blank, answer := .busFault .load a s.params.loadFaultCode,
        busLog := .load a .b :: s.busLog }) ∧
    (s.xfer.d1.length.toNat ≤ s.xfer.i.toNat → exec .dmaCopyG2d s = .next { s with pc := .id })

/-- R169: one step of DMA.COPY.D2G. The disk byte is read first, so a DiskAbort precedes a BusFault. Every byte
of guest memory but the one at `d1.address + i` reads as before. -/
def Obligations.CopyDiskToGuestMovesOneByte : Prop :=
  ∀ (s : State) (a : Addr) (off : Nat), s.mem.wf = true → s.pc = .copy → s.xfer.d1.flags.getLsbD 1 = true →
    a = s.xfer.d1.address + s.xfer.i.setWidth 64 → off = s.xfer.sector.toNat * 512 + s.xfer.i.toNat →
    (∀ b : Byte, s.xfer.i.toNat < s.xfer.d1.length.toNat → s.disk[off]? = some b → serves s a 1 = true →
      ∃ m : Memory, readByte m a.toNat = b ∧ (∀ x : Nat, x ≠ a.toNat → readByte m x = readByte s.mem x) ∧
        exec .dmaCopyD2g s = .next { s with
          mem := m, xfer := { s.xfer with i := s.xfer.i + 1 }, busLog := .store a [b] :: s.busLog }) ∧
    (∀ b : Byte, s.xfer.i.toNat < s.xfer.d1.length.toNat → s.disk[off]? = some b → refuses s a 1 = true →
      exec .dmaCopyD2g s = .next { s with
        pc := .idle, xfer := .blank, answer := .busFault .store a s.params.storeFaultCode,
        busLog := .store a [b] :: s.busLog }) ∧
    (s.xfer.i.toNat < s.xfer.d1.length.toNat → s.disk.length ≤ off →
      exec .dmaCopyD2g s = .next { s with pc := .dead, answer := .noAnswer off }) ∧
    (s.xfer.d1.length.toNat ≤ s.xfer.i.toNat → exec .dmaCopyD2g s = .next { s with pc := .id })

/-- R190: DMA.ID increments x[ID] modulo 2^ID_WIDTH. -/
def Obligations.IdPhaseTakesTheNextRequestId : Prop :=
  decodeSeq 0x08 = .ok .dmaId ∧
  ∀ s : State, s.pc = .id →
    exec .dmaId s = .next { s with id := (s.id + 1) % 2 ^ s.params.idWidth, pc := .used }

/-- R191: DMA.USED writes `x[ID] mod 8` at `used + 2` and 0 at `used + 3`, nothing else, and ends the transfer;
a refused write is a BusFault and x[ID] stays. -/
def Obligations.UsedPhaseWritesIdModEight : Prop :=
  ∀ (s : State) (a : Addr), s.mem.wf = true → s.pc = .used → a = s.xfer.used + 2 →
    (serves s a 2 = true →
      ∃ m : Memory,
        (readByte m a.toNat).toNat = s.id % 8 ∧ readByte m (a + 1).toNat = 0 ∧
        (∀ x : Nat, x ≠ a.toNat → x ≠ (a + 1).toNat → readByte m x = readByte s.mem x) ∧
        exec .dmaUsed s = .next { s with
          mem := m, pc := .idle, xfer := .blank, answer := .done,
          busLog := .store a [BitVec.ofNat 8 (s.id % 8), 0] :: s.busLog }) ∧
    (refuses s a 2 = true →
      exec .dmaUsed s = .next { s with
        pc := .idle, xfer := .blank, answer := .busFault .store a s.params.storeFaultCode,
        busLog := .store a [BitVec.ofNat 8 (s.id % 8), 0] :: s.busLog })

/-- R192, R12, R190, R191: for every ID_WIDTH of at least 3, also across the wrap of the counter: creation leaves
x[ID] = ID_RESET modulo 8; where `k` requests have taken their id, DMA.ID makes it `ID_RESET + k + 1` modulo 8; the
field that DMA.USED writes is x[ID] modulo 8; and a notify that completes does both. -/
def Obligations.UsedFieldValuesCycleModuloEight : Prop :=
  ∀ s t : State, 3 ≤ s.params.idWidth →
    (exec .reset s = .next t → t.id % 8 = s.params.idReset % 8) ∧
    ∀ k : Nat, s.id % 8 = (s.params.idReset + k) % 8 →
      (exec .dmaId s = .next t → t.id % 8 = (s.params.idReset + (k + 1)) % 8) ∧
      (exec .dmaUsed s = .next t →
        t.busLog = .store (s.xfer.used + 2) [BitVec.ofNat 8 ((s.params.idReset + k) % 8), 0] :: s.busLog) ∧
      (∀ v : Word64, exec (.wrNotify v) s = .next t → t.answer = .done →
        t.id % 8 = (s.params.idReset + (k + 1)) % 8 ∧
        ∃ log : List BusAccess,
          t.busLog = .store (usedField s) [BitVec.ofNat 8 ((s.params.idReset + (k + 1)) % 8), 0] :: log)

/-! ## Primitives -/

/-- R150, D14: DESC.READ answers the record in the 16 bytes, by every read plan of 16 bytes that memory serves,
and changes nothing; that it runs as an operation of its own is the model's choice (log 24, DESIGN CHOICE). -/
def Obligations.DescReadAnswersTheRecord : Prop :=
  ∀ (s : State) (a : Addr), s.pc ≠ .dead → planBytes s.params.descReadPlan = 16 →
    servesPlan s s.params.descReadPlan a = true →
    exec (.descRead a) s = .next { s with
      answer := .descriptor (descOfBytes (readBytes s.mem a 16)),
      busLog := (planAccesses s.params.descReadPlan a).reverse ++ s.busLog }

/-- R150, R210: the first read of a descriptor that the bus refuses ends DESC.READ, DMA.DESC0 and DMA.DESC1;
the reads after it are not issued and no record is kept. DESC.READ as an operation of its own is log 24. -/
def Obligations.DescReadStopsAtTheFirstRefusedRead : Prop :=
  ∀ (s : State) (a b : Addr) (before after : List Size) (n : Size),
    s.params.descReadPlan = before ++ n :: after → servesPlan s before a = true →
    b = a + BitVec.ofNat 64 (planBytes before) → refuses s b n.bytes = true →
    ∀ i : Instr,
      (i = .descRead a ∧ s.pc ≠ .dead) ∨
      (i = .dmaDesc0 ∧ s.pc = .desc0 ∧ a = descAddr s.xfer.base s.xfer.head) ∨
      (i = .dmaDesc1 ∧ s.pc = .desc1 ∧ a = descAddr s.xfer.base s.xfer.d0.next) →
      exec i s = .next { s with
        pc := .idle, xfer := .blank, answer := .busFault .load b s.params.loadFaultCode,
        busLog := .load b n :: ((planAccesses before a).reverse ++ s.busLog) }

/-- R80, R41: the fields of a descriptor are the little-endian numbers in bytes 0 to 7, 8 to 11, 12 to 13 and 14
to 15 of its 16 bytes. -/
def Obligations.DescriptorFieldsAreLittleEndian : Prop :=
  ∀ (m : Memory) (a : Addr) (d : Desc), d = descOfBytes (readBytes m a 16) →
    d.address.toNat = ∑ k ∈ Finset.range 8, (readByte m (a + BitVec.ofNat 64 k).toNat).toNat * 256 ^ k ∧
    d.length.toNat = ∑ k ∈ Finset.range 4, (readByte m (a + BitVec.ofNat 64 (8 + k)).toNat).toNat * 256 ^ k ∧
    d.flags.toNat = ∑ k ∈ Finset.range 2, (readByte m (a + BitVec.ofNat 64 (12 + k)).toNat).toNat * 256 ^ k ∧
    d.next.toNat = ∑ k ∈ Finset.range 2, (readByte m (a + BitVec.ofNat 64 (14 + k)).toNat).toNat * 256 ^ k

/-- R201, R202, R211: the byte operations of the disk, inside and past the end; a write never grows the disk. That
they run as operations of their own in every state but DEAD and leave the byte, or the completion, in `answer` is
the model's choice (log 24, DESIGN CHOICE). -/
def Obligations.DiskByteOperations : Prop :=
  ∀ (off : Nat) (b c : Byte) (s : State), s.pc ≠ .dead →
    (s.disk[off]? = some c → exec (.diskRdb off) s = .next { s with answer := .diskByte c }) ∧
    (off < s.disk.length →
      exec (.diskWrb off b) s = .next { s with disk := s.disk.set off b, answer := .done }) ∧
    (s.disk.length ≤ off →
      exec (.diskRdb off) s = .next { s with pc := .dead, answer := .noAnswer off } ∧
      exec (.diskWrb off b) s = .next { s with pc := .dead, answer := .noAnswer off })

/-- R202: a later read returns the last value written there, and every other offset what it held; as operations of
their own the two are the model's choice (log 24). -/
def Obligations.DiskReadReturnsTheLastWrite : Prop :=
  ∀ (off other : Nat) (b : Byte) (s t : State), off < s.disk.length → other < s.disk.length →
    s.pc ≠ .dead → exec (.diskWrb off b) s = .next t →
    t.disk.length = s.disk.length ∧
    exec (.diskRdb off) t = .next { t with answer := .diskByte b } ∧
    (other ≠ off → ∀ c, s.disk[other]? = some c →
      exec (.diskRdb other) t = .next { t with answer := .diskByte c })

/-! ## Guest memory and the bus -/

/-- R41, R52: bytes written from an address on read back at their addresses, which wrap at 2^64, and every other
byte reads as before. -/
def Obligations.GuestMemoryReadsBackWhatWasWritten : Prop :=
  ∀ (m : Memory) (a x : Addr) (bytes : List Byte), m.wf = true → bytes.length ≤ 2 ^ 64 →
    readByte (writeBytes m a bytes) x.toNat =
      (bytes[(x - a).toNat]?).getD (readByte m x.toNat)

/-- R57: in every phase a 4-byte read of the engine whose address is in the register window gets what RD of that
offset answers on an idle port S; the other widths, and the engine's writes of 1 and 2 bytes, get a fault under the
default policy, and 0 or nothing under the other (R111, R128). Guest memory is as before. -/
def Obligations.WindowAccessesOfTheEngineReachTheRegisters : Prop :=
  ∀ (s : State) (a : Addr) (n : Size) (bytes : List Byte), addrInWindow s.params a = true →
    (∃ v : Word32,
      exec (decodeRead (a - s.params.virtioBase)) { s with pc := .idle } =
        .next { s with pc := .idle, answer := .rdata (v.setWidth 64) } ∧
      busRead s a .w = (some (leBytes 4 v.toNat), s.mem)) ∧
    (s.params.badsizePolicy = .fault → n ≠ .w → busRead s a n = (none, s.mem)) ∧
    (s.params.badsizePolicy = .zero → n ≠ .w → busRead s a n = (some (List.replicate n.bytes 0), s.mem)) ∧
    (bytes.length = 1 ∨ bytes.length = 2 →
      (s.params.badsizePolicy = .fault → busWrite s a bytes = (false, s.mem)) ∧
      (s.params.badsizePolicy = .zero → busWrite s a bytes = (true, s.mem)))

/-! ## The Queue Notify write and its transfer -/

/-- R261: a notify with the queue not configured is refused. -/
def Obligations.UnconfiguredNotifyIsRefused : Prop :=
  ∀ (v : Word64) (s : State), s.pc = .idle → (s.qpfn = 0 ∨ s.pgsz = 0) →
    exec (.wrNotify v) s = .refused .queueNotConfigured

/-- R160, R172: a notify with the queue configured always answers a next state, with the register update done;
the transfer ends by completion (x[ID] taken), by a BusFault (`pc` IDLE), or by a DiskAbort (`pc` DEAD, x[ID]
untouched). The other registers, the disk's length and the map of the bus are unchanged. -/
def Obligations.TransferEndsInOneOfThreeWays : Prop :=
  ∀ (v : Word64) (s : State), s.pc = .idle → s.qpfn ≠ 0 → s.pgsz ≠ 0 →
    ∃ t : State, exec (.wrNotify v) s = .next t ∧
      t.notifyValue = v.setWidth 32 ∧
      t.notifyValid = (s.notifyValid || decide (s.params.notifySentinel ≠ some (v.setWidth 32))) ∧
      t.drvfeat = s.drvfeat ∧ t.pgsz = s.pgsz ∧ t.qsel = s.qsel ∧ t.qnum = s.qnum ∧ t.qpfn = s.qpfn ∧
      t.status = s.status ∧ t.params = s.params ∧ t.regions = s.regions ∧ t.inbox = s.inbox ∧
      t.running = s.running ∧ t.disk.length = s.disk.length ∧
      ((t.pc = .idle ∧ t.answer = .done ∧ t.id = nextId s.params s.id) ∨
       (∃ kind a, t.pc = .idle ∧ t.answer = .busFault kind a (faultCode s.params kind) ∧
          (t.id = s.id ∨ (kind = .store ∧ t.id = nextId s.params s.id))) ∨
       (∃ off, t.pc = .dead ∧ t.answer = .noAnswer off ∧ s.disk.length ≤ off ∧ t.id = s.id))

/-- R169, R172 (completion), R45, R191: a ready request with the device-writable flag set, inside the disk and
with its buffer and the used-ring field in memory, copies the disk's bytes into the buffer unchanged, then writes
the used-ring field; the accesses are those of R45 in that order, and nothing else changes. -/
def Obligations.TransferCopiesDiskToGuest : Prop :=
  ∀ (v : Word64) (s : State), Ready s → (chainD1 s).flags.getLsbD 1 = true → InBounds s →
    servesBuffer s (chainD1 s) (chainLength s) → serves s (usedField s) 2 = true →
    exec (.wrNotify v) s = .next { afterChain v (chainAccesses s ++
        bufferStores (chainD1 s).address (diskSlice s (chainLength s)) ++
        [.store (usedField s) (usedFieldBytes (nextId s.params s.id))]) s with
      id := nextId s.params s.id
      mem := writeBytes (writeBytes s.mem (chainD1 s).address (diskSlice s (chainLength s)))
        (usedField s) (usedFieldBytes (nextId s.params s.id))
      xfer := .blank
      answer := .done }

/-- R168, R172 (completion), R45, R191: the same with the flag clear: the buffer's bytes go to the disk from
`sector * 512` on, unchanged, and of guest memory only the used-ring field changes. -/
def Obligations.TransferCopiesGuestToDisk : Prop :=
  ∀ (v : Word64) (s : State), Ready s → (chainD1 s).flags.getLsbD 1 = false → InBounds s →
    servesBuffer s (chainD1 s) (chainLength s) → serves s (usedField s) 2 = true →
    exec (.wrNotify v) s = .next { afterChain v (chainAccesses s ++
        bufferLoads (chainD1 s).address (chainLength s) ++
        [.store (usedField s) (usedFieldBytes (nextId s.params s.id))]) s with
      id := nextId s.params s.id
      mem := writeBytes s.mem (usedField s) (usedFieldBytes (nextId s.params s.id))
      disk := diskOverlay s (readBytes s.mem (chainD1 s).address (chainLength s))
      xfer := .blank
      answer := .done }

/-- R172 (D2G, BusFault at byte `k`), R169, R210: bytes 0 to k-1 are in guest memory, the disk and x[ID] are
untouched, the used-ring field is not written, and the notify write answers the store fault. -/
def Obligations.DiskToGuestFaultLeavesThePrefix : Prop :=
  ∀ (v : Word64) (s : State) (k : Nat) (a : Addr), Ready s → (chainD1 s).flags.getLsbD 1 = true →
    k < chainLength s → chainDiskOffset s + k < s.disk.length → servesBuffer s (chainD1 s) k →
    a = (chainD1 s).address + BitVec.ofNat 64 k → refuses s a 1 = true →
    exec (.wrNotify v) s = .next { afterChain v (chainAccesses s ++
        bufferStores (chainD1 s).address (diskSlice s (k + 1))) s with
      mem := writeBytes s.mem (chainD1 s).address (diskSlice s k)
      xfer := .blank
      answer := .busFault .store a s.params.storeFaultCode }

/-- R172 (G2D, BusFault at byte `k`), R168, R210: bytes 0 to k-1 are on the disk, guest memory and x[ID] are
untouched, and the notify write answers the load fault. -/
def Obligations.GuestToDiskFaultLeavesThePrefix : Prop :=
  ∀ (v : Word64) (s : State) (k : Nat) (a : Addr), Ready s → (chainD1 s).flags.getLsbD 1 = false →
    k < chainLength s → (k = 0 ∨ chainDiskOffset s + k ≤ s.disk.length) → servesBuffer s (chainD1 s) k →
    a = (chainD1 s).address + BitVec.ofNat 64 k → refuses s a 1 = true →
    exec (.wrNotify v) s = .next { afterChain v (chainAccesses s ++
        bufferLoads (chainD1 s).address (k + 1)) s with
      disk := diskOverlay s (readBytes s.mem (chainD1 s).address k)
      xfer := .blank
      answer := .busFault .load a s.params.loadFaultCode }

/-- R172 (DiskAbort at byte `k`, both directions), R211, R225, R262: a request that runs past the end of the disk
leaves the bytes before byte `k` moved, x[ID] untouched, the used-ring field not written and `pc` DEAD. -/
def Obligations.DiskOverrunKillsTheDevice : Prop :=
  ∀ (v : Word64) (s : State) (k : Nat), Ready s → k < chainLength s →
    (k = 0 ∨ chainDiskOffset s + k ≤ s.disk.length) → s.disk.length ≤ chainDiskOffset s + k →
    servesBuffer s (chainD1 s) k →
    ((chainD1 s).flags.getLsbD 1 = false → serves s ((chainD1 s).address + BitVec.ofNat 64 k) 1 = true) →
    ∃ t : State, exec (.wrNotify v) s = .next t ∧ t.pc = .dead ∧ t.answer = .noAnswer (chainDiskOffset s + k) ∧
      t.id = s.id ∧ t.notifyValue = v.setWidth 32 ∧
      ((chainD1 s).flags.getLsbD 1 = true →
        t.mem = writeBytes s.mem (chainD1 s).address (diskSlice s k) ∧ t.disk = s.disk) ∧
      ((chainD1 s).flags.getLsbD 1 = false →
        t.mem = s.mem ∧ t.disk = diskOverlay s (readBytes s.mem (chainD1 s).address k)) ∧
      (∀ i : Instr, exec i t = .fault .dead) ∧ step t = .fault .dead

/-- R172 (`T_USED` by BusFault), R191: the whole buffer is copied and x[ID] is taken, but the used-ring field is
not written and the notify write answers the store fault. -/
def Obligations.UsedFieldFaultKeepsCopyAndId : Prop :=
  ∀ (v : Word64) (s : State), Ready s → InBounds s → servesBuffer s (chainD1 s) (chainLength s) →
    refuses s (usedField s) 2 = true →
    ∃ t : State, exec (.wrNotify v) s = .next t ∧ t.pc = .idle ∧ t.id = nextId s.params s.id ∧
      t.answer = .busFault .store (usedField s) s.params.storeFaultCode ∧
      ((chainD1 s).flags.getLsbD 1 = true →
        t.mem = writeBytes s.mem (chainD1 s).address (diskSlice s (chainLength s)) ∧ t.disk = s.disk) ∧
      ((chainD1 s).flags.getLsbD 1 = false →
        t.mem = s.mem ∧ t.disk = diskOverlay s (readBytes s.mem (chainD1 s).address (chainLength s)))

/-- R172 (first row), R210: a refused read before the copy ends the transfer with the load fault: guest memory,
the disk and x[ID] are as they were, and only the register update of the notify write remains. -/
def Obligations.ChainReadFaultMovesNothing : Prop :=
  ∀ (v : Word64) (s : State) (a : Addr), s.pc = .idle → s.qpfn ≠ 0 → s.pgsz ≠ 0 → ChainRefusedAt s a →
    ∃ log : List BusAccess, exec (.wrNotify v) s = .next { setNotify (v.setWidth 32) s with
      xfer := .blank, answer := .busFault .load a s.params.loadFaultCode, busLog := log ++ s.busLog }

/-- R40, R45, R172: whatever a transfer does, it only adds to the record of the bus, and where no access it adds has
a byte in a region of kind `device`, every byte of guest memory that none of the recorded stores covers reads as
before. That memory changes by nothing else off the device regions is the model's choice (log 5, log 6): what an
access with a byte in a device region changes is a free value (R44 leaves it to the bus). -/
def Obligations.BytesOutsideTheRecordedStoresAreUnchanged : Prop :=
  ∀ (v : Word64) (s t : State), exec (.wrNotify v) s = .next t →
    ∃ log : List BusAccess, t.busLog = log ++ s.busLog ∧
      ((∀ acc ∈ log, onDevice s acc = false) →
        ∀ x : Addr, (∀ acc ∈ log, ¬ stores acc x) → readByte t.mem x.toNat = readByte s.mem x.toNat)

/-- R174: the transfer inside one Queue Notify write equals its phases run one step of the machine at a time,
from T_BASE until the sequencer stops. -/
def Obligations.OneStepTransferEqualsItsPhases : Prop :=
  ∀ (v : Word64) (s t : State), exec (.wrNotify v) s = .next t →
    ∃ n : Nat, Host.Core.run Sys2Proof.core n (startTransfer (v.setWidth 32) s) = .next t

/-- R14, R21, R126 d: a transfer does not depend on the selected queue, the queue size, what an earlier transfer
left in the transient values, the last answer or the last notify value, nor on the written value but for the
notify register itself. -/
def Obligations.TransferIgnoresQueueSelectionAndOldValues : Prop :=
  ∀ (v w : Word64) (s t : State) (qsel qnum value : Word32) (x : Xfer) (ans : Answer),
    exec (.wrNotify v) s = .next t →
    exec (.wrNotify w) { s with qsel := qsel, qnum := qnum, notifyValue := value, xfer := x, answer := ans } =
      .next { t with
        qsel := qsel, qnum := qnum, notifyValue := w.setWidth 32
        notifyValid := s.notifyValid || decide (s.params.notifySentinel ≠ some (w.setWidth 32)) }

/-! ## The whole machine -/

/-- R40, R45, R203, R12, R173: guest memory changes only by a notify's transfer, DMA.COPY.D2G and DMA.USED, or in an
operation one of whose accesses has a byte in a region of kind `device`, where what changes is a free value (the
model's choice, log 6: R44 leaves it to the bus); the disk only by a transfer, DMA.COPY.G2D, DISK.WRB, DISK.INIT and
RESET; x[ID] only by a transfer, DMA.ID and RESET. -/
def Obligations.OnlyTransfersTouchMemoryDiskAndId : Prop :=
  ∀ (i : Instr) (s t : State), exec i s = .next t →
    (t.mem ≠ s.mem → (∃ v, i = .wrNotify v) ∨ i = .dmaCopyD2g ∨ i = .dmaUsed ∨
      ∃ log : List BusAccess, t.busLog = log ++ s.busLog ∧ ∃ acc ∈ log, onDevice s acc = true) ∧
    (t.disk ≠ s.disk → (∃ v, i = .wrNotify v) ∨ i = .dmaCopyG2d ∨ (∃ off b, i = .diskWrb off b) ∨
      (∃ image, i = .diskInit image) ∨ i = .reset) ∧
    (t.id ≠ s.id → (∃ v, i = .wrNotify v) ∨ i = .dmaId ∨ i = .reset)

/-- R211: in DEAD no operation and no step has a successor. -/
def Obligations.DeadAnswersNothing : Prop :=
  ∀ s : State, s.pc = .dead → step s = .fault .dead ∧ ∀ i : Instr, exec i s = .fault .dead

/-- R233: a request presented while a transfer is running has no defined move. -/
def Obligations.RequestsDuringATransferAreRefused : Prop :=
  ∀ (s : State) (op : SlaveOp) (image : List Byte), s.pc ≠ .idle → s.pc ≠ .dead →
    exec (decodeSlave op) s = .refused .transferRunning ∧ exec .irqQuery s = .refused .transferRunning ∧
    exec (.diskInit image) s = .refused .transferRunning ∧ exec .reset s = .refused .transferRunning

/-- R232: with no request nothing happens. -/
def Obligations.WithoutARequestNothingHappens : Prop :=
  ∀ s : State, s.pc = .idle → s.inbox = [] → step s = .next s

/-- R72, R74, R4: a step runs the operation that the next request, or in a phase the word `dir ++ pc`, decodes
to. A slave-port transaction starts the run; one at VIRTIO_BASE + off, off below VIRTIO_SIZE, is decoded from its
direction, its size, `off` and its write data. -/
def Obligations.StepRunsTheDecodedOperation : Prop :=
  ∀ s : State,
    (∀ (we : Bool) (size : Size) (addr off wdata : Word64) (rest : List Event),
      s.pc = .idle → s.inbox = .slave we size addr wdata :: rest →
      off.toNat < s.params.virtioSize → addr.toNat = s.params.virtioBase.toNat + off.toNat →
      decodeTransaction s.params we size addr wdata = .ok (decodeSlave ⟨we, size, off, wdata⟩) ∧
      step s = exec (decodeSlave ⟨we, size, off, wdata⟩) { s with inbox := rest, running := true }) ∧
    (∀ (we : Bool) (size : Size) (addr wdata : Word64) (rest : List Event) (i : Instr),
      s.pc = .idle → s.inbox = .slave we size addr wdata :: rest →
      decodeTransaction s.params we size addr wdata = .ok i →
      step s = exec i { s with inbox := rest, running := true }) ∧
    (∀ (code : BitVec 2) (image : List Byte) (rest : List Event) (i : Instr),
      s.pc = .idle → s.inbox = .port code image :: rest → decodePort code image = .ok i →
      step s = exec i { s with inbox := rest }) ∧
    (∀ i : Instr, s.pc ≠ .idle → s.pc ≠ .dead →
      decodeSeq (BitVec.ofBool (s.xfer.d1.flags.getLsbD 1) ++ s.pc.code) = .ok i → step s = exec i s)

/-- R51 a, R72 step 1: a driver's store between requests changes no state of the device, and neither does a
transaction outside the window. That the driver's store is an event which writes guest memory whatever the bus map
says, in the register window too, and stands on the record of the bus is the model's choice (log 14, DESIGN CHOICE);
that the transaction outside the window is dropped is its reading of R72 (log 27, DEDUCED). -/
def Obligations.OtherInputsTouchNoDeviceState : Prop :=
  ∀ (s : State) (rest : List Event), s.pc = .idle →
    (∀ (addr : Addr) (bytes : List Byte), s.inbox = .guestStore addr bytes :: rest →
      step s = .next { s with
        inbox := rest, mem := writeBytes s.mem addr bytes, busLog := .driver addr bytes :: s.busLog }) ∧
    (∀ (we : Bool) (size : Size) (addr wdata : Word64), s.inbox = .slave we size addr wdata :: rest →
      (addr.toNat < s.params.virtioBase.toNat ∨ s.params.virtioBase.toNat + s.params.virtioSize ≤ addr.toNat) →
      step s = .next { s with inbox := rest })

/-! ## Encoding -/

/-- Every word of the tables of R90 and R74, written out from R71, R74 and R20, decodes to its operation: the exact
offsets of reads and writes, a sample of each fallback and of each wrong size, the port codes, and the phase words
`dir ++ pc`, where `dir` matters in phase 7 only. -/
def Obligations.TableWordsDecodeRight : Prop :=
  ∀ (v : Word64) (image : List Byte),
    decodeSelector 0x4000 v = .ok .rdMagic ∧ decodeSelector 0x4004 v = .ok .rdVersion ∧
    decodeSelector 0x4008 v = .ok .rdDevid ∧ decodeSelector 0x400C v = .ok .rdVendor ∧
    decodeSelector 0x4010 v = .ok .rdDevfeat ∧ decodeSelector 0x4020 v = .ok .rdDrvfeat ∧
    decodeSelector 0x4034 v = .ok .rdQnummax ∧ decodeSelector 0x4040 v = .ok .rdQpfn ∧
    decodeSelector 0x4070 v = .ok .rdStatus ∧ decodeSelector 0x4028 v = .ok (.rdZero 0x028) ∧
    decodeSelector 0x5010 v = .ok (.wrDevfeat v) ∧ decodeSelector 0x5020 v = .ok (.wrDrvfeat v) ∧
    decodeSelector 0x5028 v = .ok (.wrPgsz v) ∧ decodeSelector 0x5030 v = .ok (.wrQsel v) ∧
    decodeSelector 0x5038 v = .ok (.wrQnum v) ∧ decodeSelector 0x5040 v = .ok (.wrQpfn v) ∧
    decodeSelector 0x5050 v = .ok (.wrNotify v) ∧ decodeSelector 0x5070 v = .ok (.wrStatus v) ∧
    decodeSelector 0x5034 v = .ok (.wrNop 0x034 v) ∧
    decodeSelector 0x0050 v = .ok (.rdBadsizeB 0x050) ∧ decodeSelector 0x2050 v = .ok (.rdBadsizeH 0x050) ∧
    decodeSelector 0x6050 v = .ok (.rdBadsizeD 0x050) ∧ decodeSelector 0x1050 v = .ok (.wrBadsizeB 0x050 v) ∧
    decodeSelector 0x3050 v = .ok (.wrBadsizeH 0x050 v) ∧ decodeSelector 0x7050 v = .ok (.wrBadsizeD 0x050 v) ∧
    decodePort 0 image = .ok .irqQuery ∧ decodePort 1 image = .ok (.diskInit image) ∧
    decodePort 2 image = .ok .reset ∧ decodePort 3 image = .error .unusedPortCode ∧
    decodeSeq 0x01 = .ok .dmaBase ∧ decodeSeq 0x11 = .ok .dmaBase ∧
    decodeSeq 0x02 = .ok .dmaFill ∧ decodeSeq 0x12 = .ok .dmaFill ∧
    decodeSeq 0x03 = .ok .dmaHead ∧ decodeSeq 0x13 = .ok .dmaHead ∧
    decodeSeq 0x04 = .ok .dmaDesc0 ∧ decodeSeq 0x14 = .ok .dmaDesc0 ∧
    decodeSeq 0x05 = .ok .dmaDesc1 ∧ decodeSeq 0x15 = .ok .dmaDesc1 ∧
    decodeSeq 0x06 = .ok .dmaSector ∧ decodeSeq 0x16 = .ok .dmaSector ∧
    decodeSeq 0x07 = .ok .dmaCopyG2d ∧ decodeSeq 0x17 = .ok .dmaCopyD2g ∧
    decodeSeq 0x08 = .ok .dmaId ∧ decodeSeq 0x18 = .ok .dmaId ∧
    decodeSeq 0x09 = .ok .dmaUsed ∧ decodeSeq 0x19 = .ok .dmaUsed ∧
    decodeSeq 0x00 = .error .idlePhase ∧ decodeSeq 0x10 = .error .idlePhase ∧
    decodeSeq 0x0F = .error .deadPhase ∧ decodeSeq 0x1F = .error .deadPhase ∧
    decodeSeq 0x0A = .error .unusedPhase ∧ decodeSeq 0x1A = .error .unusedPhase ∧
    decodeSeq 0x0B = .error .unusedPhase ∧ decodeSeq 0x1B = .error .unusedPhase ∧
    decodeSeq 0x0C = .error .unusedPhase ∧ decodeSeq 0x1C = .error .unusedPhase ∧
    decodeSeq 0x0D = .error .unusedPhase ∧ decodeSeq 0x1D = .error .unusedPhase ∧
    decodeSeq 0x0E = .error .unusedPhase ∧ decodeSeq 0x1E = .error .unusedPhase

/-- Decode and encode agree: every well-formed operation that has a code decodes from it, with every operand;
as a 16-bit selector word too, where the offset fits it. -/
def Obligations.DecodeOfEncodeIsTheOperation : Prop :=
  ∀ i : Instr, i.wellFormed = true →
    (i.isPrimitive = false → ∃ c : Code, encode i = some c ∧ decode c = .ok i) ∧
    (∀ (sel : BitVec 16) (v : Word64), i.fitsSelector = true → encodeSelector i = some (sel, v) →
      decodeSelector sel v = .ok i)

/-- R91, R72: no selector word is illegal and none has two meanings: with bit 15 clear it decodes to a well-formed
operation whose own selector word it is, and no other well-formed operation whose offset fits a selector word has
this word and this write data; a read's write data is not looked at. -/
def Obligations.EverySelectorWordHasOneMeaning : Prop :=
  ∀ (sel : BitVec 16) (v : Word64), sel.getLsbD 15 = false →
    ∃ i : Instr, decodeSelector sel v = .ok i ∧ i.wellFormed = true ∧ i.fitsSelector = true ∧
      encodeSelector i = some (sel, if sel.getLsbD 12 then v else 0) ∧
      ∀ j : Instr, j.wellFormed = true → j.fitsSelector = true →
        encodeSelector j = some (sel, if sel.getLsbD 12 then v else 0) → j = i

/-! ## The bus as an oracle -/

/-- R44, R210: whatever the bus answers to an access of a phase or of DESC.READ, it is taken: bytes go on, a refusal
is a BusFault, and guest memory is what the bus left; a byte read past the end of the disk still leaves it (R168). What
an access with a byte in a region of kind `device` is answered and changes is a free value (log 6), and an access into
the own window is answered as R57 says, so this holds for every bus. That DMA.SECTOR clears the byte counter is log 9,
and DESC.READ as an operation of its own is log 24. -/
def Obligations.PhasesTakeWhateverTheBusAnswers : Prop :=
  ∀ (s : State) (a : Addr) (m : Memory) (b0 b1 : Byte),
    (s.pc = .fill → a = s.xfer.avail + s.params.availIdxOff →
      (busRead s a .h = (some [b0, b1], m) →
        exec .dmaFill s = .next { s with
          pc := .head, xfer := { s.xfer with fill := b1 ++ b0, slot := b0.setWidth 3 },
          mem := m, busLog := .load a .h :: s.busLog }) ∧
      (busRead s a .h = (none, m) →
        exec .dmaFill s = .next { s with
          pc := .idle, xfer := .blank, answer := .busFault .load a s.params.loadFaultCode,
          mem := m, busLog := .load a .h :: s.busLog })) ∧
    (s.pc = .head → a = s.xfer.avail + s.params.availRingOff + s.params.availSlotStride * s.xfer.slot.setWidth 64 →
      (busRead s a .h = (some [b0, b1], m) →
        exec .dmaHead s = .next { s with
          pc := .desc0, xfer := { s.xfer with head := b1 ++ b0 }, mem := m, busLog := .load a .h :: s.busLog }) ∧
      (busRead s a .h = (none, m) →
        exec .dmaHead s = .next { s with
          pc := .idle, xfer := .blank, answer := .busFault .load a s.params.loadFaultCode,
          mem := m, busLog := .load a .h :: s.busLog })) ∧
    (∀ (raw : List Byte) (t : State), planAnswers s s.params.descReadPlan a = some (raw, t) →
      (s.pc = .desc0 → a = s.xfer.base + BitVec.ofNat 64 (16 * s.xfer.head.toNat) →
        exec .dmaDesc0 s = .next { s with
          pc := .desc1, xfer := { s.xfer with d0 := descOfBytes raw }, mem := t.mem, busLog := t.busLog }) ∧
      (s.pc = .desc1 → a = s.xfer.base + BitVec.ofNat 64 (16 * s.xfer.d0.next.toNat) →
        exec .dmaDesc1 s = .next { s with
          pc := .sector, xfer := { s.xfer with d1 := descOfBytes raw }, mem := t.mem, busLog := t.busLog }) ∧
      (s.pc ≠ .dead → exec (.descRead a) s = .next { s with
        answer := .descriptor (descOfBytes raw), mem := t.mem, busLog := t.busLog })) ∧
    (∀ (before after : List Size) (n : Size) (raw : List Byte) (t : State) (b : Addr),
      s.params.descReadPlan = before ++ n :: after → planAnswers s before a = some (raw, t) →
      b = a + BitVec.ofNat 64 (planBytes before) → busRead t b n = (none, m) →
      ∀ i : Instr,
        (i = .dmaDesc0 ∧ s.pc = .desc0 ∧ a = s.xfer.base + BitVec.ofNat 64 (16 * s.xfer.head.toNat)) ∨
        (i = .dmaDesc1 ∧ s.pc = .desc1 ∧ a = s.xfer.base + BitVec.ofNat 64 (16 * s.xfer.d0.next.toNat)) ∨
        (i = .descRead a ∧ s.pc ≠ .dead) →
        exec i s = .next { s with
          pc := .idle, xfer := .blank, answer := .busFault .load b s.params.loadFaultCode,
          mem := m, busLog := .load b n :: t.busLog }) ∧
    (s.pc = .sector → a = s.xfer.d0.address + 8 →
      (∀ bytes : List Byte, busRead s a .d = (some bytes, m) →
        exec .dmaSector s = .next { s with
          pc := .copy, xfer := { s.xfer with sector := BitVec.ofNat 64 (leNat bytes), i := 0 },
          mem := m, busLog := .load a .d :: s.busLog }) ∧
      (busRead s a .d = (none, m) →
        exec .dmaSector s = .next { s with
          pc := .idle, xfer := .blank, answer := .busFault .load a s.params.loadFaultCode,
          mem := m, busLog := .load a .d :: s.busLog })) ∧
    (s.pc = .copy → a = s.xfer.d1.address + s.xfer.i.setWidth 64 →
      s.xfer.i.toNat < s.xfer.d1.length.toNat → ∀ off : Nat, off = s.xfer.sector.toNat * 512 + s.xfer.i.toNat →
      (s.xfer.d1.flags.getLsbD 1 = false →
        (busRead s a .b = (some [b0], m) → off < s.disk.length →
          exec .dmaCopyG2d s = .next { s with
            disk := s.disk.set off b0, xfer := { s.xfer with i := s.xfer.i + 1 },
            mem := m, busLog := .load a .b :: s.busLog }) ∧
        (busRead s a .b = (some [b0], m) → s.disk.length ≤ off →
          exec .dmaCopyG2d s = .next { s with
            pc := .dead, answer := .noAnswer off, mem := m, busLog := .load a .b :: s.busLog }) ∧
        (busRead s a .b = (none, m) →
          exec .dmaCopyG2d s = .next { s with
            pc := .idle, xfer := .blank, answer := .busFault .load a s.params.loadFaultCode,
            mem := m, busLog := .load a .b :: s.busLog })) ∧
      (s.xfer.d1.flags.getLsbD 1 = true → s.disk[off]? = some b0 →
        (busWrite s a [b0] = (true, m) →
          exec .dmaCopyD2g s = .next { s with
            xfer := { s.xfer with i := s.xfer.i + 1 }, mem := m, busLog := .store a [b0] :: s.busLog }) ∧
        (busWrite s a [b0] = (false, m) →
          exec .dmaCopyD2g s = .next { s with
            pc := .idle, xfer := .blank, answer := .busFault .store a s.params.storeFaultCode,
            mem := m, busLog := .store a [b0] :: s.busLog }))) ∧
    (s.pc = .used → a = s.xfer.used + 2 →
      (busWrite s a [BitVec.ofNat 8 (s.id % 8), 0] = (true, m) →
        exec .dmaUsed s = .next { s with
          pc := .idle, xfer := .blank, answer := .done,
          mem := m, busLog := .store a [BitVec.ofNat 8 (s.id % 8), 0] :: s.busLog }) ∧
      (busWrite s a [BitVec.ofNat 8 (s.id % 8), 0] = (false, m) →
        exec .dmaUsed s = .next { s with
          pc := .idle, xfer := .blank, answer := .busFault .store a s.params.storeFaultCode,
          mem := m, busLog := .store a [BitVec.ofNat 8 (s.id % 8), 0] :: s.busLog }))
end

