-- ==== Sys2Proof/Laws/Memory.lean ====
section
/-! SUPPORT. Guest memory: every operation keeps the canonical form, and reads see the last write. -/

namespace Sys2Proof.Machine

/-- A lower bound of the canonical form may be lowered. -/
theorem memoryWfFrom_mono {lo lo' : Nat} {m : Memory} (h : memoryWfFrom lo m = true) (hle : lo' ≤ lo) :
    memoryWfFrom lo' m = true := by
  cases m with
  | nil => rfl
  | cons c rest =>
    obtain ⟨k, v⟩ := c
    simp only [memoryWfFrom, Bool.and_eq_true, decide_eq_true_eq] at h ⊢
    exact ⟨⟨⟨hle.trans h.1.1.1, h.1.1.2⟩, h.1.2⟩, h.2⟩

/-- `writeByte` keeps the canonical form from any lower bound of the written address. -/
theorem writeByte_wfFrom {m : Memory} {lo a : Nat} (v : Byte) (h : memoryWfFrom lo m = true) (hlo : lo ≤ a)
    (ha : a < 2 ^ 64) : memoryWfFrom lo (writeByte m a v) = true := by
  induction m generalizing lo with
  | nil =>
    unfold writeByte
    split
    · rfl
    · simp_all [memoryWfFrom]
  | cons c rest ih =>
    obtain ⟨k, w⟩ := c
    have hc := h
    simp only [memoryWfFrom, Bool.and_eq_true, decide_eq_true_eq] at hc
    obtain ⟨⟨⟨hk, hk64⟩, hw⟩, hr⟩ := hc
    unfold writeByte
    split
    · split
      · exact h
      · simp_all [memoryWfFrom]
    · split
      · split
        · exact memoryWfFrom_mono hr (by omega)
        · simp_all [memoryWfFrom]
      · have := ih hr (by omega)
        simp_all [memoryWfFrom]

/-- `writeByte` keeps the canonical form. -/
theorem writeByte_wf {m : Memory} (a : Addr) (v : Byte) (h : m.wf = true) : (writeByte m a.toNat v).wf = true :=
  writeByte_wfFrom v h (Nat.zero_le _) a.isLt

/-- `writeBytes` keeps the canonical form. -/
theorem writeBytes_wf {m : Memory} (a : Addr) (bytes : List Byte) (h : m.wf = true) :
    (writeBytes m a bytes).wf = true := by
  induction bytes generalizing m a with
  | nil => exact h
  | cons b rest ih => exact ih (a + 1) (writeByte_wf a b h)

/-- `writeCells` keeps the canonical form. -/
theorem writeCells_wf {m : Memory} (cells : List (Addr × Byte)) (h : m.wf = true) :
    (writeCells m cells).wf = true := by
  induction cells generalizing m with
  | nil => exact h
  | cons c rest ih => exact ih (writeByte_wf c.1 c.2 h)

/-- A read of the bus keeps the canonical form, whatever a device changes by it. -/
theorem busRead_wf {s : State} (a : Addr) (n : Size) (hs : s.mem.wf = true) : (busRead s a n).2.wf = true := by
  simp only [busRead]
  split
  · exact hs
  · split
    · exact writeCells_wf _ hs
    · split <;> exact hs

/-- A write of the bus keeps the canonical form, whatever a device changes by it. -/
theorem busWrite_wf {s : State} (a : Addr) (bytes : List Byte) (hs : s.mem.wf = true) :
    (busWrite s a bytes).2.wf = true := by
  simp only [busWrite]
  split
  · exact hs
  · split
    · exact writeCells_wf _ hs
    · split
      · exact writeBytes_wf a bytes hs
      · exact hs

/-- Below every listed address nothing is listed. -/
theorem readByte_below {m : Memory} {lo a : Nat} (h : memoryWfFrom lo m = true) (ha : a < lo) :
    readByte m a = unlistedByte := by
  induction m generalizing lo with
  | nil => rfl
  | cons c rest ih =>
    obtain ⟨k, w⟩ := c
    simp only [memoryWfFrom, Bool.and_eq_true, decide_eq_true_eq] at h
    unfold readByte
    rw [if_neg (by omega)]
    exact ih h.2 (by omega)

/-- A read of another address is not changed by a write. -/
theorem readByte_writeByte_other (m : Memory) {a x : Nat} (v : Byte) (h : x ≠ a) :
    readByte (writeByte m a v) x = readByte m x := by
  induction m with
  | nil =>
    unfold writeByte
    split
    · rfl
    · simp [readByte, Ne.symm h]
  | cons c rest ih =>
    obtain ⟨k, w⟩ := c
    unfold writeByte
    split
    · split
      · rfl
      · simp [readByte, Ne.symm h]
    · split
      · subst k
        split <;> simp [readByte, Ne.symm h]
      · simp [readByte, ih]

/-- A read of the written address gives the written value, in a memory in canonical form. -/
theorem readByte_writeByte_same {m : Memory} {lo a : Nat} (v : Byte) (h : memoryWfFrom lo m = true) :
    readByte (writeByte m a v) a = v := by
  induction m generalizing lo with
  | nil =>
    unfold writeByte
    split
    · simp_all [readByte]
    · simp [readByte]
  | cons c rest ih =>
    obtain ⟨k, w⟩ := c
    have hc := h
    simp only [memoryWfFrom, Bool.and_eq_true, decide_eq_true_eq] at hc
    unfold writeByte
    split
    · split
      · next hlt hv =>
        have hk : memoryWfFrom k ((k, w) :: rest) = true := by simp_all [memoryWfFrom]
        rw [readByte_below hk hlt, hv]
      · simp [readByte]
    · split
      · subst k
        split
        · next hv => rw [readByte_below hc.2 (by omega), hv]
        · simp [readByte]
      · next hne => simp [readByte, hne, ih hc.2]

end Sys2Proof.Machine
end

