-- ==== Sys2Proof/Laws/State.lean ====
section
/-! SUPPORT. What each named update of the state does to each field: one lemma per field per update. -/

namespace Sys2Proof.Machine

/-! ## accessed -/

@[simp] theorem accessed_params (acc : BusAccess) (m : Memory) (s : State) :
    (accessed acc m s).params = s.params := rfl
@[simp] theorem accessed_id (acc : BusAccess) (m : Memory) (s : State) :
    (accessed acc m s).id = s.id := rfl
@[simp] theorem accessed_drvfeat (acc : BusAccess) (m : Memory) (s : State) :
    (accessed acc m s).drvfeat = s.drvfeat := rfl
@[simp] theorem accessed_pgsz (acc : BusAccess) (m : Memory) (s : State) :
    (accessed acc m s).pgsz = s.pgsz := rfl
@[simp] theorem accessed_qsel (acc : BusAccess) (m : Memory) (s : State) :
    (accessed acc m s).qsel = s.qsel := rfl
@[simp] theorem accessed_qnum (acc : BusAccess) (m : Memory) (s : State) :
    (accessed acc m s).qnum = s.qnum := rfl
@[simp] theorem accessed_qpfn (acc : BusAccess) (m : Memory) (s : State) :
    (accessed acc m s).qpfn = s.qpfn := rfl
@[simp] theorem accessed_notifyValid (acc : BusAccess) (m : Memory) (s : State) :
    (accessed acc m s).notifyValid = s.notifyValid := rfl
@[simp] theorem accessed_notifyValue (acc : BusAccess) (m : Memory) (s : State) :
    (accessed acc m s).notifyValue = s.notifyValue := rfl
@[simp] theorem accessed_status (acc : BusAccess) (m : Memory) (s : State) :
    (accessed acc m s).status = s.status := rfl
@[simp] theorem accessed_pc (acc : BusAccess) (m : Memory) (s : State) :
    (accessed acc m s).pc = s.pc := rfl
@[simp] theorem accessed_xfer (acc : BusAccess) (m : Memory) (s : State) :
    (accessed acc m s).xfer = s.xfer := rfl
@[simp] theorem accessed_disk (acc : BusAccess) (m : Memory) (s : State) :
    (accessed acc m s).disk = s.disk := rfl
@[simp] theorem accessed_mem (acc : BusAccess) (m : Memory) (s : State) :
    (accessed acc m s).mem = m := rfl
@[simp] theorem accessed_regions (acc : BusAccess) (m : Memory) (s : State) :
    (accessed acc m s).regions = s.regions := rfl
@[simp] theorem accessed_busLog (acc : BusAccess) (m : Memory) (s : State) :
    (accessed acc m s).busLog = acc :: s.busLog := rfl
@[simp] theorem accessed_inbox (acc : BusAccess) (m : Memory) (s : State) :
    (accessed acc m s).inbox = s.inbox := rfl
@[simp] theorem accessed_running (acc : BusAccess) (m : Memory) (s : State) :
    (accessed acc m s).running = s.running := rfl
@[simp] theorem accessed_answer (acc : BusAccess) (m : Memory) (s : State) :
    (accessed acc m s).answer = s.answer := rfl

/-! ## respond -/

@[simp] theorem respond_params (v : Word32) (s : State) : (respond v s).params = s.params := rfl
@[simp] theorem respond_id (v : Word32) (s : State) : (respond v s).id = s.id := rfl
@[simp] theorem respond_drvfeat (v : Word32) (s : State) : (respond v s).drvfeat = s.drvfeat := rfl
@[simp] theorem respond_pgsz (v : Word32) (s : State) : (respond v s).pgsz = s.pgsz := rfl
@[simp] theorem respond_qsel (v : Word32) (s : State) : (respond v s).qsel = s.qsel := rfl
@[simp] theorem respond_qnum (v : Word32) (s : State) : (respond v s).qnum = s.qnum := rfl
@[simp] theorem respond_qpfn (v : Word32) (s : State) : (respond v s).qpfn = s.qpfn := rfl
@[simp] theorem respond_notifyValid (v : Word32) (s : State) : (respond v s).notifyValid = s.notifyValid := rfl
@[simp] theorem respond_notifyValue (v : Word32) (s : State) : (respond v s).notifyValue = s.notifyValue := rfl
@[simp] theorem respond_status (v : Word32) (s : State) : (respond v s).status = s.status := rfl
@[simp] theorem respond_pc (v : Word32) (s : State) : (respond v s).pc = s.pc := rfl
@[simp] theorem respond_xfer (v : Word32) (s : State) : (respond v s).xfer = s.xfer := rfl
@[simp] theorem respond_disk (v : Word32) (s : State) : (respond v s).disk = s.disk := rfl
@[simp] theorem respond_mem (v : Word32) (s : State) : (respond v s).mem = s.mem := rfl
@[simp] theorem respond_regions (v : Word32) (s : State) : (respond v s).regions = s.regions := rfl
@[simp] theorem respond_busLog (v : Word32) (s : State) : (respond v s).busLog = s.busLog := rfl
@[simp] theorem respond_inbox (v : Word32) (s : State) : (respond v s).inbox = s.inbox := rfl
@[simp] theorem respond_running (v : Word32) (s : State) : (respond v s).running = s.running := rfl
@[simp] theorem respond_answer (v : Word32) (s : State) : (respond v s).answer = .rdata (readData v) := rfl

/-! ## respondDone -/

@[simp] theorem respondDone_params (s : State) : (respondDone s).params = s.params := rfl
@[simp] theorem respondDone_id (s : State) : (respondDone s).id = s.id := rfl
@[simp] theorem respondDone_drvfeat (s : State) : (respondDone s).drvfeat = s.drvfeat := rfl
@[simp] theorem respondDone_pgsz (s : State) : (respondDone s).pgsz = s.pgsz := rfl
@[simp] theorem respondDone_qsel (s : State) : (respondDone s).qsel = s.qsel := rfl
@[simp] theorem respondDone_qnum (s : State) : (respondDone s).qnum = s.qnum := rfl
@[simp] theorem respondDone_qpfn (s : State) : (respondDone s).qpfn = s.qpfn := rfl
@[simp] theorem respondDone_notifyValid (s : State) : (respondDone s).notifyValid = s.notifyValid := rfl
@[simp] theorem respondDone_notifyValue (s : State) : (respondDone s).notifyValue = s.notifyValue := rfl
@[simp] theorem respondDone_status (s : State) : (respondDone s).status = s.status := rfl
@[simp] theorem respondDone_pc (s : State) : (respondDone s).pc = s.pc := rfl
@[simp] theorem respondDone_xfer (s : State) : (respondDone s).xfer = s.xfer := rfl
@[simp] theorem respondDone_disk (s : State) : (respondDone s).disk = s.disk := rfl
@[simp] theorem respondDone_mem (s : State) : (respondDone s).mem = s.mem := rfl
@[simp] theorem respondDone_regions (s : State) : (respondDone s).regions = s.regions := rfl
@[simp] theorem respondDone_busLog (s : State) : (respondDone s).busLog = s.busLog := rfl
@[simp] theorem respondDone_inbox (s : State) : (respondDone s).inbox = s.inbox := rfl
@[simp] theorem respondDone_running (s : State) : (respondDone s).running = s.running := rfl
@[simp] theorem respondDone_answer (s : State) : (respondDone s).answer = .done := rfl

/-! ## raiseSizeFault -/

@[simp] theorem raiseSizeFault_params (kind : AccessKind) (a : Addr) (s : State) : (raiseSizeFault kind a s).params = s.params := rfl
@[simp] theorem raiseSizeFault_id (kind : AccessKind) (a : Addr) (s : State) : (raiseSizeFault kind a s).id = s.id := rfl
@[simp] theorem raiseSizeFault_drvfeat (kind : AccessKind) (a : Addr) (s : State) : (raiseSizeFault kind a s).drvfeat = s.drvfeat := rfl
@[simp] theorem raiseSizeFault_pgsz (kind : AccessKind) (a : Addr) (s : State) : (raiseSizeFault kind a s).pgsz = s.pgsz := rfl
@[simp] theorem raiseSizeFault_qsel (kind : AccessKind) (a : Addr) (s : State) : (raiseSizeFault kind a s).qsel = s.qsel := rfl
@[simp] theorem raiseSizeFault_qnum (kind : AccessKind) (a : Addr) (s : State) : (raiseSizeFault kind a s).qnum = s.qnum := rfl
@[simp] theorem raiseSizeFault_qpfn (kind : AccessKind) (a : Addr) (s : State) : (raiseSizeFault kind a s).qpfn = s.qpfn := rfl
@[simp] theorem raiseSizeFault_notifyValid (kind : AccessKind) (a : Addr) (s : State) : (raiseSizeFault kind a s).notifyValid = s.notifyValid := rfl
@[simp] theorem raiseSizeFault_notifyValue (kind : AccessKind) (a : Addr) (s : State) : (raiseSizeFault kind a s).notifyValue = s.notifyValue := rfl
@[simp] theorem raiseSizeFault_status (kind : AccessKind) (a : Addr) (s : State) : (raiseSizeFault kind a s).status = s.status := rfl
@[simp] theorem raiseSizeFault_pc (kind : AccessKind) (a : Addr) (s : State) : (raiseSizeFault kind a s).pc = s.pc := rfl
@[simp] theorem raiseSizeFault_xfer (kind : AccessKind) (a : Addr) (s : State) : (raiseSizeFault kind a s).xfer = s.xfer := rfl
@[simp] theorem raiseSizeFault_disk (kind : AccessKind) (a : Addr) (s : State) : (raiseSizeFault kind a s).disk = s.disk := rfl
@[simp] theorem raiseSizeFault_mem (kind : AccessKind) (a : Addr) (s : State) : (raiseSizeFault kind a s).mem = s.mem := rfl
@[simp] theorem raiseSizeFault_regions (kind : AccessKind) (a : Addr) (s : State) : (raiseSizeFault kind a s).regions = s.regions := rfl
@[simp] theorem raiseSizeFault_busLog (kind : AccessKind) (a : Addr) (s : State) : (raiseSizeFault kind a s).busLog = s.busLog := rfl
@[simp] theorem raiseSizeFault_inbox (kind : AccessKind) (a : Addr) (s : State) : (raiseSizeFault kind a s).inbox = s.inbox := rfl
@[simp] theorem raiseSizeFault_running (kind : AccessKind) (a : Addr) (s : State) : (raiseSizeFault kind a s).running = s.running := rfl
@[simp] theorem raiseSizeFault_answer (kind : AccessKind) (a : Addr) (s : State) : (raiseSizeFault kind a s).answer = .sizeFault kind a (faultCode s.params kind) := rfl

/-! ## endTransfer -/

@[simp] theorem endTransfer_params (ans : Answer) (s : State) : (endTransfer ans s).params = s.params := rfl
@[simp] theorem endTransfer_id (ans : Answer) (s : State) : (endTransfer ans s).id = s.id := rfl
@[simp] theorem endTransfer_drvfeat (ans : Answer) (s : State) : (endTransfer ans s).drvfeat = s.drvfeat := rfl
@[simp] theorem endTransfer_pgsz (ans : Answer) (s : State) : (endTransfer ans s).pgsz = s.pgsz := rfl
@[simp] theorem endTransfer_qsel (ans : Answer) (s : State) : (endTransfer ans s).qsel = s.qsel := rfl
@[simp] theorem endTransfer_qnum (ans : Answer) (s : State) : (endTransfer ans s).qnum = s.qnum := rfl
@[simp] theorem endTransfer_qpfn (ans : Answer) (s : State) : (endTransfer ans s).qpfn = s.qpfn := rfl
@[simp] theorem endTransfer_notifyValid (ans : Answer) (s : State) : (endTransfer ans s).notifyValid = s.notifyValid := rfl
@[simp] theorem endTransfer_notifyValue (ans : Answer) (s : State) : (endTransfer ans s).notifyValue = s.notifyValue := rfl
@[simp] theorem endTransfer_status (ans : Answer) (s : State) : (endTransfer ans s).status = s.status := rfl
@[simp] theorem endTransfer_pc (ans : Answer) (s : State) : (endTransfer ans s).pc = .idle := rfl
@[simp] theorem endTransfer_xfer (ans : Answer) (s : State) : (endTransfer ans s).xfer = .blank := rfl
@[simp] theorem endTransfer_disk (ans : Answer) (s : State) : (endTransfer ans s).disk = s.disk := rfl
@[simp] theorem endTransfer_mem (ans : Answer) (s : State) : (endTransfer ans s).mem = s.mem := rfl
@[simp] theorem endTransfer_regions (ans : Answer) (s : State) : (endTransfer ans s).regions = s.regions := rfl
@[simp] theorem endTransfer_busLog (ans : Answer) (s : State) : (endTransfer ans s).busLog = s.busLog := rfl
@[simp] theorem endTransfer_inbox (ans : Answer) (s : State) : (endTransfer ans s).inbox = s.inbox := rfl
@[simp] theorem endTransfer_running (ans : Answer) (s : State) : (endTransfer ans s).running = s.running := rfl
@[simp] theorem endTransfer_answer (ans : Answer) (s : State) : (endTransfer ans s).answer = ans := rfl

/-! ## raiseBusFault -/

@[simp] theorem raiseBusFault_params (kind : AccessKind) (a : Addr) (s : State) : (raiseBusFault kind a s).params = s.params := rfl
@[simp] theorem raiseBusFault_id (kind : AccessKind) (a : Addr) (s : State) : (raiseBusFault kind a s).id = s.id := rfl
@[simp] theorem raiseBusFault_drvfeat (kind : AccessKind) (a : Addr) (s : State) : (raiseBusFault kind a s).drvfeat = s.drvfeat := rfl
@[simp] theorem raiseBusFault_pgsz (kind : AccessKind) (a : Addr) (s : State) : (raiseBusFault kind a s).pgsz = s.pgsz := rfl
@[simp] theorem raiseBusFault_qsel (kind : AccessKind) (a : Addr) (s : State) : (raiseBusFault kind a s).qsel = s.qsel := rfl
@[simp] theorem raiseBusFault_qnum (kind : AccessKind) (a : Addr) (s : State) : (raiseBusFault kind a s).qnum = s.qnum := rfl
@[simp] theorem raiseBusFault_qpfn (kind : AccessKind) (a : Addr) (s : State) : (raiseBusFault kind a s).qpfn = s.qpfn := rfl
@[simp] theorem raiseBusFault_notifyValid (kind : AccessKind) (a : Addr) (s : State) : (raiseBusFault kind a s).notifyValid = s.notifyValid := rfl
@[simp] theorem raiseBusFault_notifyValue (kind : AccessKind) (a : Addr) (s : State) : (raiseBusFault kind a s).notifyValue = s.notifyValue := rfl
@[simp] theorem raiseBusFault_status (kind : AccessKind) (a : Addr) (s : State) : (raiseBusFault kind a s).status = s.status := rfl
@[simp] theorem raiseBusFault_pc (kind : AccessKind) (a : Addr) (s : State) : (raiseBusFault kind a s).pc = .idle := rfl
@[simp] theorem raiseBusFault_xfer (kind : AccessKind) (a : Addr) (s : State) : (raiseBusFault kind a s).xfer = .blank := rfl
@[simp] theorem raiseBusFault_disk (kind : AccessKind) (a : Addr) (s : State) : (raiseBusFault kind a s).disk = s.disk := rfl
@[simp] theorem raiseBusFault_mem (kind : AccessKind) (a : Addr) (s : State) : (raiseBusFault kind a s).mem = s.mem := rfl
@[simp] theorem raiseBusFault_regions (kind : AccessKind) (a : Addr) (s : State) : (raiseBusFault kind a s).regions = s.regions := rfl
@[simp] theorem raiseBusFault_busLog (kind : AccessKind) (a : Addr) (s : State) : (raiseBusFault kind a s).busLog = s.busLog := rfl
@[simp] theorem raiseBusFault_inbox (kind : AccessKind) (a : Addr) (s : State) : (raiseBusFault kind a s).inbox = s.inbox := rfl
@[simp] theorem raiseBusFault_running (kind : AccessKind) (a : Addr) (s : State) : (raiseBusFault kind a s).running = s.running := rfl
@[simp] theorem raiseBusFault_answer (kind : AccessKind) (a : Addr) (s : State) : (raiseBusFault kind a s).answer = .busFault kind a (faultCode s.params kind) := rfl

/-! ## raiseDiskAbort -/

@[simp] theorem raiseDiskAbort_params (off : Nat) (s : State) : (raiseDiskAbort off s).params = s.params := rfl
@[simp] theorem raiseDiskAbort_id (off : Nat) (s : State) : (raiseDiskAbort off s).id = s.id := rfl
@[simp] theorem raiseDiskAbort_drvfeat (off : Nat) (s : State) : (raiseDiskAbort off s).drvfeat = s.drvfeat := rfl
@[simp] theorem raiseDiskAbort_pgsz (off : Nat) (s : State) : (raiseDiskAbort off s).pgsz = s.pgsz := rfl
@[simp] theorem raiseDiskAbort_qsel (off : Nat) (s : State) : (raiseDiskAbort off s).qsel = s.qsel := rfl
@[simp] theorem raiseDiskAbort_qnum (off : Nat) (s : State) : (raiseDiskAbort off s).qnum = s.qnum := rfl
@[simp] theorem raiseDiskAbort_qpfn (off : Nat) (s : State) : (raiseDiskAbort off s).qpfn = s.qpfn := rfl
@[simp] theorem raiseDiskAbort_notifyValid (off : Nat) (s : State) : (raiseDiskAbort off s).notifyValid = s.notifyValid := rfl
@[simp] theorem raiseDiskAbort_notifyValue (off : Nat) (s : State) : (raiseDiskAbort off s).notifyValue = s.notifyValue := rfl
@[simp] theorem raiseDiskAbort_status (off : Nat) (s : State) : (raiseDiskAbort off s).status = s.status := rfl
@[simp] theorem raiseDiskAbort_pc (off : Nat) (s : State) : (raiseDiskAbort off s).pc = .dead := rfl
@[simp] theorem raiseDiskAbort_xfer (off : Nat) (s : State) : (raiseDiskAbort off s).xfer = s.xfer := rfl
@[simp] theorem raiseDiskAbort_disk (off : Nat) (s : State) : (raiseDiskAbort off s).disk = s.disk := rfl
@[simp] theorem raiseDiskAbort_mem (off : Nat) (s : State) : (raiseDiskAbort off s).mem = s.mem := rfl
@[simp] theorem raiseDiskAbort_regions (off : Nat) (s : State) : (raiseDiskAbort off s).regions = s.regions := rfl
@[simp] theorem raiseDiskAbort_busLog (off : Nat) (s : State) : (raiseDiskAbort off s).busLog = s.busLog := rfl
@[simp] theorem raiseDiskAbort_inbox (off : Nat) (s : State) : (raiseDiskAbort off s).inbox = s.inbox := rfl
@[simp] theorem raiseDiskAbort_running (off : Nat) (s : State) : (raiseDiskAbort off s).running = s.running := rfl
@[simp] theorem raiseDiskAbort_answer (off : Nat) (s : State) : (raiseDiskAbort off s).answer = .noAnswer off := rfl

/-! ## setNotify -/

@[simp] theorem setNotify_params (v : Word32) (s : State) : (setNotify v s).params = s.params := rfl
@[simp] theorem setNotify_id (v : Word32) (s : State) : (setNotify v s).id = s.id := rfl
@[simp] theorem setNotify_drvfeat (v : Word32) (s : State) : (setNotify v s).drvfeat = s.drvfeat := rfl
@[simp] theorem setNotify_pgsz (v : Word32) (s : State) : (setNotify v s).pgsz = s.pgsz := rfl
@[simp] theorem setNotify_qsel (v : Word32) (s : State) : (setNotify v s).qsel = s.qsel := rfl
@[simp] theorem setNotify_qnum (v : Word32) (s : State) : (setNotify v s).qnum = s.qnum := rfl
@[simp] theorem setNotify_qpfn (v : Word32) (s : State) : (setNotify v s).qpfn = s.qpfn := rfl
@[simp] theorem setNotify_notifyValid (v : Word32) (s : State) : (setNotify v s).notifyValid = (s.notifyValid || marksPending s.params v) := rfl
@[simp] theorem setNotify_notifyValue (v : Word32) (s : State) : (setNotify v s).notifyValue = v := rfl
@[simp] theorem setNotify_status (v : Word32) (s : State) : (setNotify v s).status = s.status := rfl
@[simp] theorem setNotify_pc (v : Word32) (s : State) : (setNotify v s).pc = s.pc := rfl
@[simp] theorem setNotify_xfer (v : Word32) (s : State) : (setNotify v s).xfer = s.xfer := rfl
@[simp] theorem setNotify_disk (v : Word32) (s : State) : (setNotify v s).disk = s.disk := rfl
@[simp] theorem setNotify_mem (v : Word32) (s : State) : (setNotify v s).mem = s.mem := rfl
@[simp] theorem setNotify_regions (v : Word32) (s : State) : (setNotify v s).regions = s.regions := rfl
@[simp] theorem setNotify_busLog (v : Word32) (s : State) : (setNotify v s).busLog = s.busLog := rfl
@[simp] theorem setNotify_inbox (v : Word32) (s : State) : (setNotify v s).inbox = s.inbox := rfl
@[simp] theorem setNotify_running (v : Word32) (s : State) : (setNotify v s).running = s.running := rfl
@[simp] theorem setNotify_answer (v : Word32) (s : State) : (setNotify v s).answer = s.answer := rfl

/-! ## clearNotify -/

@[simp] theorem clearNotify_params (s : State) : (clearNotify s).params = s.params := rfl
@[simp] theorem clearNotify_id (s : State) : (clearNotify s).id = s.id := rfl
@[simp] theorem clearNotify_drvfeat (s : State) : (clearNotify s).drvfeat = s.drvfeat := rfl
@[simp] theorem clearNotify_pgsz (s : State) : (clearNotify s).pgsz = s.pgsz := rfl
@[simp] theorem clearNotify_qsel (s : State) : (clearNotify s).qsel = s.qsel := rfl
@[simp] theorem clearNotify_qnum (s : State) : (clearNotify s).qnum = s.qnum := rfl
@[simp] theorem clearNotify_qpfn (s : State) : (clearNotify s).qpfn = s.qpfn := rfl
@[simp] theorem clearNotify_notifyValid (s : State) : (clearNotify s).notifyValid = false := rfl
@[simp] theorem clearNotify_notifyValue (s : State) : (clearNotify s).notifyValue = s.notifyValue := rfl
@[simp] theorem clearNotify_status (s : State) : (clearNotify s).status = s.status := rfl
@[simp] theorem clearNotify_pc (s : State) : (clearNotify s).pc = s.pc := rfl
@[simp] theorem clearNotify_xfer (s : State) : (clearNotify s).xfer = s.xfer := rfl
@[simp] theorem clearNotify_disk (s : State) : (clearNotify s).disk = s.disk := rfl
@[simp] theorem clearNotify_mem (s : State) : (clearNotify s).mem = s.mem := rfl
@[simp] theorem clearNotify_regions (s : State) : (clearNotify s).regions = s.regions := rfl
@[simp] theorem clearNotify_busLog (s : State) : (clearNotify s).busLog = s.busLog := rfl
@[simp] theorem clearNotify_inbox (s : State) : (clearNotify s).inbox = s.inbox := rfl
@[simp] theorem clearNotify_running (s : State) : (clearNotify s).running = s.running := rfl
@[simp] theorem clearNotify_answer (s : State) : (clearNotify s).answer = s.answer := rfl

/-! ## startTransfer -/

@[simp] theorem startTransfer_params (v : Word32) (s : State) : (startTransfer v s).params = s.params := rfl
@[simp] theorem startTransfer_id (v : Word32) (s : State) : (startTransfer v s).id = s.id := rfl
@[simp] theorem startTransfer_drvfeat (v : Word32) (s : State) : (startTransfer v s).drvfeat = s.drvfeat := rfl
@[simp] theorem startTransfer_pgsz (v : Word32) (s : State) : (startTransfer v s).pgsz = s.pgsz := rfl
@[simp] theorem startTransfer_qsel (v : Word32) (s : State) : (startTransfer v s).qsel = s.qsel := rfl
@[simp] theorem startTransfer_qnum (v : Word32) (s : State) : (startTransfer v s).qnum = s.qnum := rfl
@[simp] theorem startTransfer_qpfn (v : Word32) (s : State) : (startTransfer v s).qpfn = s.qpfn := rfl
@[simp] theorem startTransfer_notifyValid (v : Word32) (s : State) : (startTransfer v s).notifyValid = (s.notifyValid || marksPending s.params v) := rfl
@[simp] theorem startTransfer_notifyValue (v : Word32) (s : State) : (startTransfer v s).notifyValue = v := rfl
@[simp] theorem startTransfer_status (v : Word32) (s : State) : (startTransfer v s).status = s.status := rfl
@[simp] theorem startTransfer_pc (v : Word32) (s : State) : (startTransfer v s).pc = .base := rfl
@[simp] theorem startTransfer_xfer (v : Word32) (s : State) : (startTransfer v s).xfer = s.xfer := rfl
@[simp] theorem startTransfer_disk (v : Word32) (s : State) : (startTransfer v s).disk = s.disk := rfl
@[simp] theorem startTransfer_mem (v : Word32) (s : State) : (startTransfer v s).mem = s.mem := rfl
@[simp] theorem startTransfer_regions (v : Word32) (s : State) : (startTransfer v s).regions = s.regions := rfl
@[simp] theorem startTransfer_busLog (v : Word32) (s : State) : (startTransfer v s).busLog = s.busLog := rfl
@[simp] theorem startTransfer_inbox (v : Word32) (s : State) : (startTransfer v s).inbox = s.inbox := rfl
@[simp] theorem startTransfer_running (v : Word32) (s : State) : (startTransfer v s).running = s.running := rfl
@[simp] theorem startTransfer_answer (v : Word32) (s : State) : (startTransfer v s).answer = .none := rfl

/-! ## nextByte -/

@[simp] theorem nextByte_params (s : State) : (nextByte s).params = s.params := rfl
@[simp] theorem nextByte_id (s : State) : (nextByte s).id = s.id := rfl
@[simp] theorem nextByte_drvfeat (s : State) : (nextByte s).drvfeat = s.drvfeat := rfl
@[simp] theorem nextByte_pgsz (s : State) : (nextByte s).pgsz = s.pgsz := rfl
@[simp] theorem nextByte_qsel (s : State) : (nextByte s).qsel = s.qsel := rfl
@[simp] theorem nextByte_qnum (s : State) : (nextByte s).qnum = s.qnum := rfl
@[simp] theorem nextByte_qpfn (s : State) : (nextByte s).qpfn = s.qpfn := rfl
@[simp] theorem nextByte_notifyValid (s : State) : (nextByte s).notifyValid = s.notifyValid := rfl
@[simp] theorem nextByte_notifyValue (s : State) : (nextByte s).notifyValue = s.notifyValue := rfl
@[simp] theorem nextByte_status (s : State) : (nextByte s).status = s.status := rfl
@[simp] theorem nextByte_pc (s : State) : (nextByte s).pc = s.pc := rfl
@[simp] theorem nextByte_xfer (s : State) : (nextByte s).xfer = { s.xfer with i := s.xfer.i + 1 } := rfl
@[simp] theorem nextByte_disk (s : State) : (nextByte s).disk = s.disk := rfl
@[simp] theorem nextByte_mem (s : State) : (nextByte s).mem = s.mem := rfl
@[simp] theorem nextByte_regions (s : State) : (nextByte s).regions = s.regions := rfl
@[simp] theorem nextByte_busLog (s : State) : (nextByte s).busLog = s.busLog := rfl
@[simp] theorem nextByte_inbox (s : State) : (nextByte s).inbox = s.inbox := rfl
@[simp] theorem nextByte_running (s : State) : (nextByte s).running = s.running := rfl
@[simp] theorem nextByte_answer (s : State) : (nextByte s).answer = s.answer := rfl

/-! ## phaseId -/

@[simp] theorem phaseId_params (s : State) : (phaseId s).params = s.params := rfl
@[simp] theorem phaseId_id (s : State) : (phaseId s).id = nextId s.params s.id := rfl
@[simp] theorem phaseId_drvfeat (s : State) : (phaseId s).drvfeat = s.drvfeat := rfl
@[simp] theorem phaseId_pgsz (s : State) : (phaseId s).pgsz = s.pgsz := rfl
@[simp] theorem phaseId_qsel (s : State) : (phaseId s).qsel = s.qsel := rfl
@[simp] theorem phaseId_qnum (s : State) : (phaseId s).qnum = s.qnum := rfl
@[simp] theorem phaseId_qpfn (s : State) : (phaseId s).qpfn = s.qpfn := rfl
@[simp] theorem phaseId_notifyValid (s : State) : (phaseId s).notifyValid = s.notifyValid := rfl
@[simp] theorem phaseId_notifyValue (s : State) : (phaseId s).notifyValue = s.notifyValue := rfl
@[simp] theorem phaseId_status (s : State) : (phaseId s).status = s.status := rfl
@[simp] theorem phaseId_pc (s : State) : (phaseId s).pc = .used := rfl
@[simp] theorem phaseId_xfer (s : State) : (phaseId s).xfer = s.xfer := rfl
@[simp] theorem phaseId_disk (s : State) : (phaseId s).disk = s.disk := rfl
@[simp] theorem phaseId_mem (s : State) : (phaseId s).mem = s.mem := rfl
@[simp] theorem phaseId_regions (s : State) : (phaseId s).regions = s.regions := rfl
@[simp] theorem phaseId_busLog (s : State) : (phaseId s).busLog = s.busLog := rfl
@[simp] theorem phaseId_inbox (s : State) : (phaseId s).inbox = s.inbox := rfl
@[simp] theorem phaseId_running (s : State) : (phaseId s).running = s.running := rfl
@[simp] theorem phaseId_answer (s : State) : (phaseId s).answer = s.answer := rfl

/-! ## takeEvent -/

@[simp] theorem takeEvent_params (rest : List Event) (s : State) : (takeEvent rest s).params = s.params := rfl
@[simp] theorem takeEvent_id (rest : List Event) (s : State) : (takeEvent rest s).id = s.id := rfl
@[simp] theorem takeEvent_drvfeat (rest : List Event) (s : State) : (takeEvent rest s).drvfeat = s.drvfeat := rfl
@[simp] theorem takeEvent_pgsz (rest : List Event) (s : State) : (takeEvent rest s).pgsz = s.pgsz := rfl
@[simp] theorem takeEvent_qsel (rest : List Event) (s : State) : (takeEvent rest s).qsel = s.qsel := rfl
@[simp] theorem takeEvent_qnum (rest : List Event) (s : State) : (takeEvent rest s).qnum = s.qnum := rfl
@[simp] theorem takeEvent_qpfn (rest : List Event) (s : State) : (takeEvent rest s).qpfn = s.qpfn := rfl
@[simp] theorem takeEvent_notifyValid (rest : List Event) (s : State) : (takeEvent rest s).notifyValid = s.notifyValid := rfl
@[simp] theorem takeEvent_notifyValue (rest : List Event) (s : State) : (takeEvent rest s).notifyValue = s.notifyValue := rfl
@[simp] theorem takeEvent_status (rest : List Event) (s : State) : (takeEvent rest s).status = s.status := rfl
@[simp] theorem takeEvent_pc (rest : List Event) (s : State) : (takeEvent rest s).pc = s.pc := rfl
@[simp] theorem takeEvent_xfer (rest : List Event) (s : State) : (takeEvent rest s).xfer = s.xfer := rfl
@[simp] theorem takeEvent_disk (rest : List Event) (s : State) : (takeEvent rest s).disk = s.disk := rfl
@[simp] theorem takeEvent_mem (rest : List Event) (s : State) : (takeEvent rest s).mem = s.mem := rfl
@[simp] theorem takeEvent_regions (rest : List Event) (s : State) : (takeEvent rest s).regions = s.regions := rfl
@[simp] theorem takeEvent_busLog (rest : List Event) (s : State) : (takeEvent rest s).busLog = s.busLog := rfl
@[simp] theorem takeEvent_inbox (rest : List Event) (s : State) : (takeEvent rest s).inbox = rest := rfl
@[simp] theorem takeEvent_running (rest : List Event) (s : State) : (takeEvent rest s).running = s.running := rfl
@[simp] theorem takeEvent_answer (rest : List Event) (s : State) : (takeEvent rest s).answer = s.answer := rfl

/-! ## takeSlave -/

@[simp] theorem takeSlave_params (rest : List Event) (s : State) : (takeSlave rest s).params = s.params := rfl
@[simp] theorem takeSlave_id (rest : List Event) (s : State) : (takeSlave rest s).id = s.id := rfl
@[simp] theorem takeSlave_drvfeat (rest : List Event) (s : State) : (takeSlave rest s).drvfeat = s.drvfeat := rfl
@[simp] theorem takeSlave_pgsz (rest : List Event) (s : State) : (takeSlave rest s).pgsz = s.pgsz := rfl
@[simp] theorem takeSlave_qsel (rest : List Event) (s : State) : (takeSlave rest s).qsel = s.qsel := rfl
@[simp] theorem takeSlave_qnum (rest : List Event) (s : State) : (takeSlave rest s).qnum = s.qnum := rfl
@[simp] theorem takeSlave_qpfn (rest : List Event) (s : State) : (takeSlave rest s).qpfn = s.qpfn := rfl
@[simp] theorem takeSlave_notifyValid (rest : List Event) (s : State) : (takeSlave rest s).notifyValid = s.notifyValid := rfl
@[simp] theorem takeSlave_notifyValue (rest : List Event) (s : State) : (takeSlave rest s).notifyValue = s.notifyValue := rfl
@[simp] theorem takeSlave_status (rest : List Event) (s : State) : (takeSlave rest s).status = s.status := rfl
@[simp] theorem takeSlave_pc (rest : List Event) (s : State) : (takeSlave rest s).pc = s.pc := rfl
@[simp] theorem takeSlave_xfer (rest : List Event) (s : State) : (takeSlave rest s).xfer = s.xfer := rfl
@[simp] theorem takeSlave_disk (rest : List Event) (s : State) : (takeSlave rest s).disk = s.disk := rfl
@[simp] theorem takeSlave_mem (rest : List Event) (s : State) : (takeSlave rest s).mem = s.mem := rfl
@[simp] theorem takeSlave_regions (rest : List Event) (s : State) : (takeSlave rest s).regions = s.regions := rfl
@[simp] theorem takeSlave_busLog (rest : List Event) (s : State) : (takeSlave rest s).busLog = s.busLog := rfl
@[simp] theorem takeSlave_inbox (rest : List Event) (s : State) : (takeSlave rest s).inbox = rest := rfl
@[simp] theorem takeSlave_running (rest : List Event) (s : State) : (takeSlave rest s).running = true := rfl
@[simp] theorem takeSlave_answer (rest : List Event) (s : State) : (takeSlave rest s).answer = s.answer := rfl

end Sys2Proof.Machine
end

