-- ==== Sys2Proof/Laws/Ops.lean ====
section
/-! SUPPORT. One lemma per shared operation that says everything it can do. The operations that take the rest of
the operation as a continuation have an induction principle: what the fault and every continuation give, they
give. -/

namespace Sys2Proof.Machine

open Sys2Proof.Safety

/-! ## When an operation may run -/

theorem atPort_next {s t u : State} (h : atPort s t = .next u) : s.pc = .idle ∧ u = t := by
  unfold atPort at h
  split at h <;> simp_all

theorem atPort_idle {s t : State} (h : s.pc = .idle) : atPort s t = .next t := by
  simp [atPort, h]

theorem beforeRun_next {s t u : State} (h : beforeRun s t = .next u) :
    s.pc = .idle ∧ s.running = false ∧ u = t := by
  unfold beforeRun at h
  split at h
  · split at h <;> simp_all
  · simp at h
  · simp at h

theorem inPhase_next {p : Phase} {s t u : State} (h : inPhase p s t = .next u) :
    s.pc ≠ .dead ∧ s.pc = p ∧ u = t := by
  unfold inPhase at h
  split at h
  · simp at h
  · split at h <;> simp_all

theorem primitive_next {s t u : State} (h : primitive s t = .next u) : s.pc ≠ .dead ∧ u = t := by
  unfold primitive at h
  split at h <;> simp_all

/-! ## The bus -/

/-- Memory answers a read it serves with the bytes it holds, and stays as it is. -/
theorem busRead_serves {s : State} {a : Addr} {n : Size} (h : serves s a n.bytes = true) :
    busRead s a n = (some (readBytes s.mem a n.bytes), s.mem) := by
  simp only [serves, Bool.and_eq_true, Bool.not_eq_true'] at h
  simp [busRead, h.1.1, h.1.2, h.2]

/-- A refused read is answered by a fault, and memory stays as it is. -/
theorem busRead_refuses {s : State} {a : Addr} {n : Size} (h : refuses s a n.bytes = true) :
    busRead s a n = (none, s.mem) := by
  simp only [refuses, Bool.and_eq_true, Bool.not_eq_true'] at h
  simp [busRead, h.1.1, h.1.2, h.2]

/-- Memory takes the bytes of a write it serves. -/
theorem busWrite_serves {s : State} {a : Addr} {bytes : List Byte} (h : serves s a bytes.length = true) :
    busWrite s a bytes = (true, writeBytes s.mem a bytes) := by
  simp only [serves, Bool.and_eq_true, Bool.not_eq_true'] at h
  simp [busWrite, h.1.1, h.1.2, h.2]

/-- A refused write is answered by a fault, and memory stays as it is. -/
theorem busWrite_refuses {s : State} {a : Addr} {bytes : List Byte} (h : refuses s a bytes.length = true) :
    busWrite s a bytes = (false, s.mem) := by
  simp only [refuses, Bool.and_eq_true, Bool.not_eq_true'] at h
  simp [busWrite, h.1.1, h.1.2, h.2]

/-- A read of the bus leaves guest memory as it is, but for what a device changes by it. -/
theorem busRead_mem (s : State) (a : Addr) (n : Size) (h : onDevice s (.load a n) = false) :
    (busRead s a n).2 = s.mem := by
  simp only [onDevice, Bool.and_eq_false_imp, Bool.not_eq_true'] at h
  simp only [busRead]
  split
  · rfl
  · rw [if_neg (by simp_all)]
    split <;> rfl

/-- A write of the bus leaves guest memory as it is or lays the bytes over it, but for what a device changes by
it. -/
theorem busWrite_mem (s : State) (a : Addr) (bytes : List Byte) (h : onDevice s (.store a bytes) = false) :
    (busWrite s a bytes).2 = s.mem ∨ (busWrite s a bytes).2 = writeBytes s.mem a bytes := by
  simp only [onDevice, Bool.and_eq_false_imp, Bool.not_eq_true'] at h
  simp only [busWrite]
  split
  · exact .inl rfl
  · rw [if_neg (by simp_all)]
    split
    · exact .inr rfl
    · exact .inl rfl

/-! ## Accesses that raise -/

/-- Everything `memRead` can do: the rest on the bytes and the memory the bus gave, or a BusFault. -/
theorem memRead_cases {P : State → Prop} (s : State) (a : Addr) (n : Size) (rest : List Byte → State → State)
    (hok : ∀ bytes m, busRead s a n = (some bytes, m) → P (rest bytes (accessed (.load a n) m s)))
    (hfault : ∀ m, busRead s a n = (none, m) → P (raiseBusFault .load a (accessed (.load a n) m s))) :
    P (memRead s a n rest) := by
  unfold memRead
  split
  · exact hok _ _ ‹_›
  · exact hfault _ ‹_›

/-- Everything `memWrite` can do: the rest on the memory the bus gave, or a BusFault. -/
theorem memWrite_cases {P : State → Prop} (s : State) (a : Addr) (bytes : List Byte) (rest : State → State)
    (hok : ∀ m, busWrite s a bytes = (true, m) → P (rest (accessed (.store a bytes) m s)))
    (hfault : ∀ m, busWrite s a bytes = (false, m) → P (raiseBusFault .store a (accessed (.store a bytes) m s))) :
    P (memWrite s a bytes rest) := by
  unfold memWrite
  split
  · exact hok _ ‹_›
  · exact hfault _ ‹_›

/-- Everything `readPlan` can do, for a property `Q` of states that a read of the bus keeps: the rest, or a
BusFault, in a state with `Q`. -/
theorem readPlan_cases {P Q : State → Prop}
    (hread : ∀ s a n, Q s → Q (accessed (.load a n) (busRead s a n).2 s))
    (hfault : ∀ s a, Q s → P (raiseBusFault .load a s)) (rest : List Byte → State → State)
    (hok : ∀ raw s, Q s → P (rest raw s)) (plan : List Size) (a : Addr) (raw : List Byte) (s : State)
    (hs : Q s) : P (readPlan plan a raw s rest) := by
  induction plan generalizing a raw s with
  | nil => exact hok raw s hs
  | cons n plan ih =>
    have hq := hread s a n hs
    exact memRead_cases s a n _ (fun bytes m e => ih _ _ _ (by simpa [e] using hq))
      (fun m e => hfault _ _ (by simpa [e] using hq))

/-- A plan whose reads the bus answers, whatever memory it leaves: the rest on the bytes, in the state after them. -/
theorem readPlan_answers {plan : List Size} {a : Addr} {raw bytes : List Byte} {s t : State}
    (h : planAnswers s plan a = some (bytes, t)) (after : List Size) (rest : List Byte → State → State) :
    readPlan (plan ++ after) a raw s rest =
      readPlan after (a + BitVec.ofNat 64 (planBytes plan)) (raw ++ bytes) t rest := by
  induction plan generalizing a raw bytes s with
  | nil =>
    cases h
    simp [planBytes]
  | cons n plan ih =>
    simp only [planAnswers] at h
    split at h
    · simp at h
    · next read =>
      split at h
      · simp at h
      · next more =>
        cases h
        rw [List.cons_append, readPlan, memRead, read]
        refine (ih more).trans ?_
        simp [planBytes, BitVec.ofNat_add, BitVec.add_assoc]

/-- After the reads of a plan only guest memory and the record of the bus differ. -/
theorem planAnswers_state {plan : List Size} {a : Addr} {bytes : List Byte} {s t : State}
    (h : planAnswers s plan a = some (bytes, t)) : t = { s with mem := t.mem, busLog := t.busLog } := by
  induction plan generalizing a bytes s with
  | nil => cases h; rfl
  | cons n plan ih =>
    simp only [planAnswers] at h
    split at h
    · simp at h
    · split at h
      · simp at h
      · next more =>
        cases h
        have same := ih more
        exact same

/-- Everything `descRead` can do, for a property `Q` of states that a read of the bus keeps. -/
theorem descRead_cases {P Q : State → Prop}
    (hread : ∀ s a n, Q s → Q (accessed (.load a n) (busRead s a n).2 s))
    (hfault : ∀ s a, Q s → P (raiseBusFault .load a s)) (rest : Desc → State → State)
    (hok : ∀ d s, Q s → P (rest d s)) (a : Addr) (s : State) (hs : Q s) : P (descRead s a rest) :=
  readPlan_cases hread hfault _ (fun raw s hs => hok (descOfBytes raw) s hs) _ a [] s hs

/-- Everything `diskRead` can do: the rest on the byte at the offset, or a DiskAbort past the end. -/
theorem diskRead_cases {P : State → Prop} (s : State) (off : Nat) (rest : Byte → State → State)
    (hok : ∀ b, s.disk[off]? = some b → P (rest b s))
    (habort : s.disk.length ≤ off → P (raiseDiskAbort off s)) : P (diskRead s off rest) := by
  unfold diskRead
  split
  · exact hok _ ‹_›
  · exact habort (by simp_all)

/-- Everything `diskWrite` can do: the rest on the disk with the byte set, or a DiskAbort past the end. -/
theorem diskWrite_cases {P : State → Prop} (s : State) (off : Nat) (b : Byte) (rest : State → State)
    (hok : off < s.disk.length → P (rest { s with disk := s.disk.set off b }))
    (habort : s.disk.length ≤ off → P (raiseDiskAbort off s)) : P (diskWrite s off b rest) := by
  unfold diskWrite
  split
  · exact hok ‹_›
  · exact habort (by omega)

/-! ## Reads that memory serves -/

theorem readBytes_length (m : Memory) (a : Addr) (n : Nat) : (readBytes m a n).length = n := by
  induction n generalizing a with
  | zero => rfl
  | succ n ih => simp [readBytes, ih]

/-- A read of `n + k` bytes is a read of `n` and then one of `k`. -/
theorem readBytes_add (m : Memory) (a : Addr) (n k : Nat) :
    readBytes m a (n + k) = readBytes m a n ++ readBytes m (a + BitVec.ofNat 64 n) k := by
  induction n generalizing a with
  | zero => simp [readBytes]
  | succ n ih =>
    have h : a + 1 + BitVec.ofNat 64 n = a + BitVec.ofNat 64 (n + 1) := by
      apply BitVec.eq_of_toNat_eq
      simp [BitVec.toNat_add]
      omega
    rw [Nat.add_right_comm, readBytes, readBytes, ih, h]
    rfl

/-- What the bus serves depends on the parameters and the map only. -/
theorem serves_congr {s t : State} (hp : t.params = s.params) (hr : t.regions = s.regions) (a : Addr) (n : Nat) :
    serves t a n = serves s a n := by simp [serves, hp, hr]

theorem refuses_congr {s t : State} (hp : t.params = s.params) (hr : t.regions = s.regions) (a : Addr) (n : Nat) :
    refuses t a n = refuses s a n := by simp [refuses, hp, hr]

theorem servesPlan_congr {s t : State} (hp : t.params = s.params) (hr : t.regions = s.regions) (plan : List Size)
    (a : Addr) : servesPlan t plan a = servesPlan s plan a := by
  induction plan generalizing a with
  | nil => rfl
  | cons n plan ih => simp [servesPlan, serves_congr hp hr, ih]

/-- `memRead` of an access that memory serves. -/
theorem memRead_serves {s : State} {a : Addr} {n : Size} (h : serves s a n.bytes = true)
    (rest : List Byte → State → State) :
    memRead s a n rest = rest (readBytes s.mem a n.bytes) (accessed (.load a n) s.mem s) := by
  simp [memRead, busRead_serves h]

/-- `memRead` of an access that the bus refuses. -/
theorem memRead_refuses {s : State} {a : Addr} {n : Size} (h : refuses s a n.bytes = true)
    (rest : List Byte → State → State) :
    memRead s a n rest = raiseBusFault .load a (accessed (.load a n) s.mem s) := by
  simp [memRead, busRead_refuses h]

/-- `memWrite` of an access that memory serves. -/
theorem memWrite_serves {s : State} {a : Addr} {bytes : List Byte} (h : serves s a bytes.length = true)
    (rest : State → State) :
    memWrite s a bytes rest = rest (accessed (.store a bytes) (writeBytes s.mem a bytes) s) := by
  simp [memWrite, busWrite_serves h]

/-- `memWrite` of an access that the bus refuses. -/
theorem memWrite_refuses {s : State} {a : Addr} {bytes : List Byte} (h : refuses s a bytes.length = true)
    (rest : State → State) :
    memWrite s a bytes rest = raiseBusFault .store a (accessed (.store a bytes) s.mem s) := by
  simp [memWrite, busWrite_refuses h]

/-- The state with the reads of a plan on the record of port M. -/
theorem readPlan_serves {plan : List Size} {a : Addr} {raw : List Byte} {s : State}
    (h : servesPlan s plan a = true) (rest : List Byte → State → State) :
    readPlan plan a raw s rest =
      rest (raw ++ readBytes s.mem a (planBytes plan))
        { s with busLog := (planAccesses plan a).reverse ++ s.busLog } := by
  induction plan generalizing a raw s with
  | nil => simp [readPlan, planBytes, readBytes, planAccesses]
  | cons n plan ih =>
    simp only [servesPlan, Bool.and_eq_true] at h
    rw [readPlan, memRead_serves h.1, ih ((servesPlan_congr (s := s) (t := accessed _ s.mem s) rfl rfl _ _).trans h.2)]
    simp [planBytes, readBytes_add, planAccesses, accessed]

/-- `descRead` of a descriptor that memory serves, by any plan of 16 bytes. -/
theorem descRead_serves {s : State} {a : Addr} (h16 : planBytes s.params.descReadPlan = 16)
    (h : servesPlan s s.params.descReadPlan a = true) (rest : Desc → State → State) :
    descRead s a rest =
      rest (descOfBytes (readBytes s.mem a 16))
        { s with busLog := (planAccesses s.params.descReadPlan a).reverse ++ s.busLog } := by
  simp [descRead, readPlan_serves h, h16]

end Sys2Proof.Machine
end

