-- ==== Sys2Proof/Laws/Transfer.lean ====
section
/-! SUPPORT. What the phases of a transfer never touch, said once for every phase and for the whole transfer. -/

namespace Sys2Proof.Machine

/-- The fields no phase of a transfer touches, and the length of the disk. -/
structure SameOutside (s t : State) : Prop where
  params : t.params = s.params
  drvfeat : t.drvfeat = s.drvfeat
  pgsz : t.pgsz = s.pgsz
  qsel : t.qsel = s.qsel
  qnum : t.qnum = s.qnum
  qpfn : t.qpfn = s.qpfn
  notifyValid : t.notifyValid = s.notifyValid
  notifyValue : t.notifyValue = s.notifyValue
  status : t.status = s.status
  regions : t.regions = s.regions
  inbox : t.inbox = s.inbox
  running : t.running = s.running
  diskLength : t.disk.length = s.disk.length

theorem SameOutside.refl (s : State) : SameOutside s s := ⟨rfl, rfl, rfl, rfl, rfl, rfl, rfl, rfl, rfl, rfl, rfl, rfl, rfl⟩

theorem SameOutside.trans {s t u : State} (h : SameOutside s t) (k : SameOutside t u) : SameOutside s u :=
  ⟨k.params.trans h.params, k.drvfeat.trans h.drvfeat, k.pgsz.trans h.pgsz, k.qsel.trans h.qsel,
   k.qnum.trans h.qnum, k.qpfn.trans h.qpfn, k.notifyValid.trans h.notifyValid,
   k.notifyValue.trans h.notifyValue, k.status.trans h.status, k.regions.trans h.regions,
   k.inbox.trans h.inbox, k.running.trans h.running, k.diskLength.trans h.diskLength⟩

/-- An update of the other fields, and of disk bytes, keeps the outside. -/
theorem SameOutside.of_update {s t : State} (h : SameOutside s t) (id : Nat) (pc : Phase) (xfer : Xfer)
    (disk : List Byte) (mem : Memory) (log : List BusAccess) (ans : Answer) (hd : disk.length = t.disk.length) :
    SameOutside s { t with id := id, pc := pc, xfer := xfer, disk := disk, mem := mem, busLog := log, answer := ans } :=
  ⟨h.params, h.drvfeat, h.pgsz, h.qsel, h.qnum, h.qpfn, h.notifyValid, h.notifyValue, h.status, h.regions,
   h.inbox, h.running, hd.trans h.diskLength⟩

theorem phaseBase_outside (s : State) : SameOutside s (phaseBase s) :=
  (SameOutside.refl s).of_update _ _ _ _ _ _ _ rfl

theorem phaseFill_outside (s : State) : SameOutside s (phaseFill s) :=
  memRead_cases (P := SameOutside s) s _ _ _
    (fun _ _ _ => (SameOutside.refl s).of_update _ _ _ _ _ _ _ rfl)
    (fun _ _ => (SameOutside.refl s).of_update _ _ _ _ _ _ _ rfl)

theorem phaseHead_outside (s : State) : SameOutside s (phaseHead s) :=
  memRead_cases (P := SameOutside s) s _ _ _
    (fun _ _ _ => (SameOutside.refl s).of_update _ _ _ _ _ _ _ rfl)
    (fun _ _ => (SameOutside.refl s).of_update _ _ _ _ _ _ _ rfl)

theorem phaseDesc0_outside (s : State) : SameOutside s (phaseDesc0 s) :=
  descRead_cases (P := SameOutside s) (Q := SameOutside s)
    (fun _ _ _ h => h.of_update _ _ _ _ _ _ _ rfl) (fun _ _ h => h.of_update _ _ _ _ _ _ _ rfl) _
    (fun _ _ h => h.of_update _ _ _ _ _ _ _ rfl) _ s (SameOutside.refl s)

theorem phaseDesc1_outside (s : State) : SameOutside s (phaseDesc1 s) :=
  descRead_cases (P := SameOutside s) (Q := SameOutside s)
    (fun _ _ _ h => h.of_update _ _ _ _ _ _ _ rfl) (fun _ _ h => h.of_update _ _ _ _ _ _ _ rfl) _
    (fun _ _ h => h.of_update _ _ _ _ _ _ _ rfl) _ s (SameOutside.refl s)

theorem phaseSector_outside (s : State) : SameOutside s (phaseSector s) :=
  memRead_cases (P := SameOutside s) s _ _ _
    (fun _ _ _ => (SameOutside.refl s).of_update _ _ _ _ _ _ _ rfl)
    (fun _ _ => (SameOutside.refl s).of_update _ _ _ _ _ _ _ rfl)

theorem copyG2d_outside (s : State) : SameOutside s (copyG2d s) := by
  unfold copyG2d
  split
  · refine memRead_cases (P := SameOutside s) s _ _ _ (fun _ _ _ => ?_)
      (fun _ _ => (SameOutside.refl s).of_update _ _ _ _ _ _ _ rfl)
    exact diskWrite_cases (P := SameOutside s) _ _ _ _
      (fun _ => (SameOutside.refl s).of_update _ _ _ _ _ _ _ (by simp))
      (fun _ => (SameOutside.refl s).of_update _ _ _ _ _ _ _ rfl)
  · exact (SameOutside.refl s).of_update _ _ _ _ _ _ _ rfl

theorem copyD2g_outside (s : State) : SameOutside s (copyD2g s) := by
  unfold copyD2g
  split
  · refine diskRead_cases (P := SameOutside s) s _ _ (fun _ _ => ?_)
      (fun _ => (SameOutside.refl s).of_update _ _ _ _ _ _ _ rfl)
    exact memWrite_cases (P := SameOutside s) _ _ _ _
      (fun _ _ => (SameOutside.refl s).of_update _ _ _ _ _ _ _ rfl)
      (fun _ _ => (SameOutside.refl s).of_update _ _ _ _ _ _ _ rfl)
  · exact (SameOutside.refl s).of_update _ _ _ _ _ _ _ rfl

theorem copyStep_outside (s : State) : SameOutside s (copyStep s) := by
  unfold copyStep
  split
  · exact copyD2g_outside s
  · exact copyG2d_outside s

theorem copyLoop_outside (n : Nat) (s : State) : SameOutside s (copyLoop n s) := by
  induction n generalizing s with
  | zero => exact SameOutside.refl s
  | succ n ih =>
    unfold copyLoop
    split
    · exact (copyStep_outside s).trans (ih _)
    · exact SameOutside.refl s

theorem phaseId_outside (s : State) : SameOutside s (phaseId s) :=
  (SameOutside.refl s).of_update _ _ _ _ _ _ _ rfl

theorem phaseUsed_outside (s : State) : SameOutside s (phaseUsed s) :=
  memWrite_cases (P := SameOutside s) s _ _ _
    (fun _ _ => (SameOutside.refl s).of_update _ _ _ _ _ _ _ rfl)
    (fun _ _ => (SameOutside.refl s).of_update _ _ _ _ _ _ _ rfl)

/-- A property of states that every phase keeps is kept by a phase that may be skipped. -/
theorem thenPhase_outside {p : Phase} {f : State → State} (hf : ∀ s, SameOutside s (f s)) {s t : State}
    (h : SameOutside s t) : SameOutside s (thenPhase p f t) := by
  unfold thenPhase
  split
  · exact h.trans (hf t)
  · exact h

/-- A whole transfer touches nothing outside. -/
theorem transfer_outside (s : State) : SameOutside s (transfer s) :=
  thenPhase_outside phaseUsed_outside <| thenPhase_outside phaseId_outside <|
  thenPhase_outside (fun s => copyLoop_outside _ s) <| thenPhase_outside phaseSector_outside <|
  thenPhase_outside phaseDesc1_outside <| thenPhase_outside phaseDesc0_outside <|
  thenPhase_outside phaseHead_outside <| thenPhase_outside phaseFill_outside <|
  thenPhase_outside phaseBase_outside (SameOutside.refl s)

/-- Everything WR.NOTIFY can do when it answers a next state: the queue was configured, and the state is the end
of the transfer. -/
theorem execWrNotify_next {v : Word64} {s t : State} (h : execWrNotify v s = .next t) :
    s.pc = .idle ∧ queueConfigured s = true ∧ t = transfer (startTransfer (writeValue v) s) := by
  unfold execWrNotify at h
  split at h
  · simp at h
  · obtain ⟨hpc, ht⟩ := atPort_next h
    simp_all

end Sys2Proof.Machine
end

