-- ==== Sys2Proof/Laws/Exec.lean ====
section
/-! SUPPORT. Everything an operation and a step can do when they answer a next state, said once. -/

namespace Sys2Proof.Machine

/-- What the reads and the plain writes of port S do: at most one register is stored, and the port answers. -/
inductive Served (s : State) : State → Prop
  | read (ans : Answer) : Served s { s with answer := ans }
  | drvfeat (v : Word32) (ans : Answer) : Served s { s with drvfeat := v, answer := ans }
  | pgsz (v : Word32) (ans : Answer) : Served s { s with pgsz := v, answer := ans }
  | qsel (v : Word32) (ans : Answer) : Served s { s with qsel := v, answer := ans }
  | qnum (v : Word32) (ans : Answer) : Served s { s with qnum := v, answer := ans }
  | qpfn (v : Word32) (ans : Answer) : Served s { s with qpfn := v, answer := ans }
  | status (v : Word32) (ans : Answer) : Served s { s with status := v, answer := ans }

/-- Everything an operation can do: from `s` it runs to `t`. -/
inductive Ran (s : State) : Instr → State → Prop
  | served {i : Instr} {t : State} (hpc : s.pc = .idle) (h : Served s t) : Ran s i t
  | irqQuery (hpc : s.pc = .idle) : Ran s .irqQuery { clearNotify s with answer := .query s.notifyValid }
  | reset (hpc : s.pc = .idle) (hrun : s.running = false) : Ran s .reset (resetDevice s)
  | diskInit (image : List Byte) (hpc : s.pc = .idle) (hrun : s.running = false) :
      Ran s (.diskInit image) (respondDone { s with disk := s.disk ++ image })
  | wrNotify (v : Word64) (hpc : s.pc = .idle) (hq : queueConfigured s = true) :
      Ran s (.wrNotify v) (transfer (startTransfer (writeValue v) s))
  | base (hpc : s.pc = .base) : Ran s .dmaBase (phaseBase s)
  | fill (hpc : s.pc = .fill) : Ran s .dmaFill (phaseFill s)
  | head (hpc : s.pc = .head) : Ran s .dmaHead (phaseHead s)
  | desc0 (hpc : s.pc = .desc0) : Ran s .dmaDesc0 (phaseDesc0 s)
  | desc1 (hpc : s.pc = .desc1) : Ran s .dmaDesc1 (phaseDesc1 s)
  | sector (hpc : s.pc = .sector) : Ran s .dmaSector (phaseSector s)
  | copyG2d (hpc : s.pc = .copy) : Ran s .dmaCopyG2d (copyG2d s)
  | copyD2g (hpc : s.pc = .copy) : Ran s .dmaCopyD2g (copyD2g s)
  | id (hpc : s.pc = .id) : Ran s .dmaId (phaseId s)
  | used (hpc : s.pc = .used) : Ran s .dmaUsed (phaseUsed s)
  | descRead (a : Addr) (hpc : s.pc ≠ .dead) :
      Ran s (.descRead a) (descRead s a fun d s' => { s' with answer := .descriptor d })
  | diskRdb (off : Nat) (hpc : s.pc ≠ .dead) :
      Ran s (.diskRdb off) (diskRead s off fun b s' => { s' with answer := .diskByte b })
  | diskWrb (off : Nat) (b : Byte) (hpc : s.pc ≠ .dead) : Ran s (.diskWrb off b) (diskWrite s off b respondDone)

/-- A wrong-size read only answers. -/
theorem badsizeRead_answers (off : Word64) (s : State) : ∃ ans, badsizeRead off s = { s with answer := ans } := by
  unfold badsizeRead
  split <;> exact ⟨_, rfl⟩

/-- A wrong-size write only answers. -/
theorem badsizeWrite_answers (off : Word64) (s : State) : ∃ ans, badsizeWrite off s = { s with answer := ans } := by
  unfold badsizeWrite
  split <;> exact ⟨_, rfl⟩

/-- `exec` answers a next state in these ways only. -/
theorem exec_ran {i : Instr} {s t : State} (h : exec i s = .next t) : Ran s i t := by
  cases i
  case wrNotify v =>
    obtain ⟨hpc, hq, ht⟩ := execWrNotify_next h
    exact ht ▸ .wrNotify v hpc hq
  case irqQuery =>
    obtain ⟨hpc, rfl⟩ := atPort_next h
    exact .irqQuery hpc
  case reset =>
    obtain ⟨hpc, hrun, rfl⟩ := beforeRun_next h
    exact .reset hpc hrun
  case diskInit image =>
    obtain ⟨hpc, hrun, rfl⟩ := beforeRun_next h
    exact .diskInit image hpc hrun
  case dmaBase => obtain ⟨_, hpc, rfl⟩ := inPhase_next h; exact .base hpc
  case dmaFill => obtain ⟨_, hpc, rfl⟩ := inPhase_next h; exact .fill hpc
  case dmaHead => obtain ⟨_, hpc, rfl⟩ := inPhase_next h; exact .head hpc
  case dmaDesc0 => obtain ⟨_, hpc, rfl⟩ := inPhase_next h; exact .desc0 hpc
  case dmaDesc1 => obtain ⟨_, hpc, rfl⟩ := inPhase_next h; exact .desc1 hpc
  case dmaSector => obtain ⟨_, hpc, rfl⟩ := inPhase_next h; exact .sector hpc
  case dmaId => obtain ⟨_, hpc, rfl⟩ := inPhase_next h; exact .id hpc
  case dmaUsed => obtain ⟨_, hpc, rfl⟩ := inPhase_next h; exact .used hpc
  case dmaCopyG2d =>
    simp only [exec, execDmaCopyG2d] at h
    split at h
    · simp at h
    · obtain ⟨_, hpc, rfl⟩ := inPhase_next h
      exact .copyG2d hpc
  case dmaCopyD2g =>
    simp only [exec, execDmaCopyD2g] at h
    split at h
    · simp at h
    · obtain ⟨_, hpc, rfl⟩ := inPhase_next h
      exact .copyD2g hpc
  case descRead a => obtain ⟨hpc, rfl⟩ := primitive_next h; exact .descRead a hpc
  case diskRdb off => obtain ⟨hpc, rfl⟩ := primitive_next h; exact .diskRdb off hpc
  case diskWrb off b => obtain ⟨hpc, rfl⟩ := primitive_next h; exact .diskWrb off b hpc
  all_goals
    obtain ⟨hpc, rfl⟩ := atPort_next h
    refine .served hpc ?_
  case rdBadsizeB off => obtain ⟨ans, e⟩ := badsizeRead_answers off s; rw [e]; exact .read ans
  case rdBadsizeH off => obtain ⟨ans, e⟩ := badsizeRead_answers off s; rw [e]; exact .read ans
  case rdBadsizeD off => obtain ⟨ans, e⟩ := badsizeRead_answers off s; rw [e]; exact .read ans
  case wrBadsizeB off _ => obtain ⟨ans, e⟩ := badsizeWrite_answers off s; rw [e]; exact .read ans
  case wrBadsizeH off _ => obtain ⟨ans, e⟩ := badsizeWrite_answers off s; rw [e]; exact .read ans
  case wrBadsizeD off _ => obtain ⟨ans, e⟩ := badsizeWrite_answers off s; rw [e]; exact .read ans
  case wrDevfeat v =>
    split
    · exact .drvfeat _ _
    · exact .read _
  case wrDrvfeat v =>
    split
    · exact .drvfeat _ _
    · exact .read _
  case wrPgsz => exact .pgsz _ _
  case wrQsel => exact .qsel _ _
  case wrQnum => exact .qnum _ _
  case wrQpfn => exact .qpfn _ _
  case wrStatus => exact .status _ _
  all_goals exact .read _

/-- Everything a step can do. -/
inductive Stepped (s : State) : State → Prop
  | quiet (hpc : s.pc = .idle) : Stepped s s
  | ignored (rest : List Event) (hpc : s.pc = .idle) : Stepped s (takeEvent rest s)
  | guestStore (rest : List Event) (a : Addr) (bytes : List Byte) (hpc : s.pc = .idle) :
      Stepped s (accessed (.driver a bytes) (writeBytes s.mem a bytes) (takeEvent rest s))
  | slave (rest : List Event) {i : Instr} {t : State} (hpc : s.pc = .idle) (h : Ran (takeSlave rest s) i t) :
      Stepped s t
  | port (rest : List Event) {i : Instr} {t : State} (hpc : s.pc = .idle) (h : Ran (takeEvent rest s) i t) :
      Stepped s t
  | phase {i : Instr} {t : State} (hpc : s.pc ≠ .idle) (h : Ran s i t) : Stepped s t

/-- `step` answers a next state in these ways only. -/
theorem step_stepped {s t : State} (h : step s = .next t) : Stepped s t := by
  unfold step at h
  cases hpc : s.pc
  case dead => simp [fetch, hpc] at h
  case idle =>
    simp only [fetch, hpc] at h
    cases hin : s.inbox with
    | nil =>
      simp only [hin, fetchEvent] at h
      cases h
      exact .quiet hpc
    | cons e rest =>
      rw [hin] at h
      cases e with
      | slave we size a w =>
        simp only [fetchEvent] at h
        cases hd : decodeTransaction s.params we size a w <;> simp only [hd] at h
        · cases h
          exact .ignored rest hpc
        · exact .slave rest hpc (exec_ran h)
      | port code image =>
        simp only [fetchEvent] at h
        cases hd : decodePort code image <;> simp only [hd] at h
        · simp at h
        · exact .port rest hpc (exec_ran h)
      | guestStore a bytes =>
        simp only [fetchEvent] at h
        cases h
        exact .guestStore rest a bytes hpc
  all_goals
    simp only [fetch, hpc] at h
    cases hd : decodeSeq (seqWord s) <;> simp only [hd] at h
    · simp at h
    · exact .phase (by simp [hpc]) (exec_ran h)

end Sys2Proof.Machine
end

