-- ==== Sys2Proof/Laws/PerInstr.lean ====
section
/-! SUPPORT. Statements made per operation. `TableRow`: the word the encoder writes matches the operation's row
of spec/opcode_table.json under the row's mask; the primitives have no word. -/

namespace Sys2Proof.Laws

/-- The word of a code: the selector word (R71), the port code or the phase word (R74). -/
def codeWord : Code → BitVec 16
  | .slave op => packSelector op
  | .port code _ => code.setWidth 16
  | .seq word => word.setWidth 16

/-- The "match" and the "mask" of the operation's row of spec/opcode_table.json; `none` where the row says
"encoding": "none". -/
def tableRow : Instr → Option (BitVec 16 × BitVec 16)
  | .rdMagic => some (0x4000, 0xFFFF)
  | .rdVersion => some (0x4004, 0xFFFF)
  | .rdDevid => some (0x4008, 0xFFFF)
  | .rdVendor => some (0x400C, 0xFFFF)
  | .rdDevfeat => some (0x4010, 0xFFFF)
  | .rdDrvfeat => some (0x4020, 0xFFFF)
  | .rdQnummax => some (0x4034, 0xFFFF)
  | .rdQpfn => some (0x4040, 0xFFFF)
  | .rdStatus => some (0x4070, 0xFFFF)
  | .rdZero _ => some (0x4000, 0xF000)
  | .wrDevfeat _ => some (0x5010, 0xFFFF)
  | .wrDrvfeat _ => some (0x5020, 0xFFFF)
  | .wrPgsz _ => some (0x5028, 0xFFFF)
  | .wrQsel _ => some (0x5030, 0xFFFF)
  | .wrQnum _ => some (0x5038, 0xFFFF)
  | .wrQpfn _ => some (0x5040, 0xFFFF)
  | .wrNotify _ => some (0x5050, 0xFFFF)
  | .wrStatus _ => some (0x5070, 0xFFFF)
  | .wrNop _ _ => some (0x5000, 0xF000)
  | .rdBadsizeB _ => some (0x0000, 0xF000)
  | .rdBadsizeH _ => some (0x2000, 0xF000)
  | .rdBadsizeD _ => some (0x6000, 0xF000)
  | .wrBadsizeB _ _ => some (0x1000, 0xF000)
  | .wrBadsizeH _ _ => some (0x3000, 0xF000)
  | .wrBadsizeD _ _ => some (0x7000, 0xF000)
  | .irqQuery => some (0x0, 0x3)
  | .diskInit _ => some (0x1, 0x3)
  | .reset => some (0x2, 0x3)
  | .dmaBase => some (0x01, 0x0F)
  | .dmaFill => some (0x02, 0x0F)
  | .dmaHead => some (0x03, 0x0F)
  | .dmaDesc0 => some (0x04, 0x0F)
  | .dmaDesc1 => some (0x05, 0x0F)
  | .dmaSector => some (0x06, 0x0F)
  | .dmaCopyG2d => some (0x07, 0x1F)
  | .dmaCopyD2g => some (0x17, 0x1F)
  | .dmaId => some (0x08, 0x0F)
  | .dmaUsed => some (0x09, 0x0F)
  | .descRead _ => none
  | .diskRdb _ => none
  | .diskWrb _ _ => none

/-- The encoder's word, if there is one, matches the row. -/
def TableRow.Statement (i : Instr) : Prop :=
  match tableRow i with
  | none => encode i = none
  | some (value, mask) => ∃ c, encode i = some c ∧ codeWord c &&& mask = value

/-- The four high bits of a selector word are 0, the size code and the direction. -/
theorem packSelector_high (size : Size) (we : Bool) (off wdata : Word64) :
    packSelector ⟨we, size, off, wdata⟩ &&& 0xF000#16 =
      packSelector ⟨we, size, 0, 0⟩ &&& 0xF000#16 := by
  apply BitVec.eq_of_getLsbD_eq
  intro k hk
  simp only [packSelector, BitVec.getLsbD_and, BitVec.getLsbD_append]
  by_cases h : k < 12
  · have : (0xF000#16).getLsbD k = false := by interval_cases k <;> rfl
    simp [this]
  · simp [h]

/-- The write data is no part of the selector word. -/
theorem packSelector_data (size : Size) (we : Bool) (off wdata : Word64) (mask : BitVec 16) :
    packSelector ⟨we, size, off, wdata⟩ &&& mask = packSelector ⟨we, size, off, 0⟩ &&& mask := rfl

theorem TableRow.rdMagic : TableRow.Statement .rdMagic := ⟨_, rfl, by decide⟩
theorem TableRow.rdVersion : TableRow.Statement .rdVersion := ⟨_, rfl, by decide⟩
theorem TableRow.rdDevid : TableRow.Statement .rdDevid := ⟨_, rfl, by decide⟩
theorem TableRow.rdVendor : TableRow.Statement .rdVendor := ⟨_, rfl, by decide⟩
theorem TableRow.rdDevfeat : TableRow.Statement .rdDevfeat := ⟨_, rfl, by decide⟩
theorem TableRow.rdDrvfeat : TableRow.Statement .rdDrvfeat := ⟨_, rfl, by decide⟩
theorem TableRow.rdQnummax : TableRow.Statement .rdQnummax := ⟨_, rfl, by decide⟩
theorem TableRow.rdQpfn : TableRow.Statement .rdQpfn := ⟨_, rfl, by decide⟩
theorem TableRow.rdStatus : TableRow.Statement .rdStatus := ⟨_, rfl, by decide⟩
theorem TableRow.rdZero (off : Word64) : TableRow.Statement (.rdZero off) :=
  ⟨_, rfl, (packSelector_high _ _ off _).trans (by decide)⟩
theorem TableRow.wrDevfeat (wdata : Word64) : TableRow.Statement (.wrDevfeat wdata) :=
  ⟨_, rfl, (packSelector_data _ _ _ _ _).trans (by decide)⟩
theorem TableRow.wrDrvfeat (wdata : Word64) : TableRow.Statement (.wrDrvfeat wdata) :=
  ⟨_, rfl, (packSelector_data _ _ _ _ _).trans (by decide)⟩
theorem TableRow.wrPgsz (wdata : Word64) : TableRow.Statement (.wrPgsz wdata) :=
  ⟨_, rfl, (packSelector_data _ _ _ _ _).trans (by decide)⟩
theorem TableRow.wrQsel (wdata : Word64) : TableRow.Statement (.wrQsel wdata) :=
  ⟨_, rfl, (packSelector_data _ _ _ _ _).trans (by decide)⟩
theorem TableRow.wrQnum (wdata : Word64) : TableRow.Statement (.wrQnum wdata) :=
  ⟨_, rfl, (packSelector_data _ _ _ _ _).trans (by decide)⟩
theorem TableRow.wrQpfn (wdata : Word64) : TableRow.Statement (.wrQpfn wdata) :=
  ⟨_, rfl, (packSelector_data _ _ _ _ _).trans (by decide)⟩
theorem TableRow.wrNotify (wdata : Word64) : TableRow.Statement (.wrNotify wdata) :=
  ⟨_, rfl, (packSelector_data _ _ _ _ _).trans (by decide)⟩
theorem TableRow.wrStatus (wdata : Word64) : TableRow.Statement (.wrStatus wdata) :=
  ⟨_, rfl, (packSelector_data _ _ _ _ _).trans (by decide)⟩
theorem TableRow.wrNop (off : Word64) (wdata : Word64) : TableRow.Statement (.wrNop off wdata) :=
  ⟨_, rfl, (packSelector_high _ _ off _).trans (by decide)⟩
theorem TableRow.rdBadsizeB (off : Word64) : TableRow.Statement (.rdBadsizeB off) :=
  ⟨_, rfl, (packSelector_high _ _ off _).trans (by decide)⟩
theorem TableRow.rdBadsizeH (off : Word64) : TableRow.Statement (.rdBadsizeH off) :=
  ⟨_, rfl, (packSelector_high _ _ off _).trans (by decide)⟩
theorem TableRow.rdBadsizeD (off : Word64) : TableRow.Statement (.rdBadsizeD off) :=
  ⟨_, rfl, (packSelector_high _ _ off _).trans (by decide)⟩
theorem TableRow.wrBadsizeB (off : Word64) (wdata : Word64) : TableRow.Statement (.wrBadsizeB off wdata) :=
  ⟨_, rfl, (packSelector_high _ _ off _).trans (by decide)⟩
theorem TableRow.wrBadsizeH (off : Word64) (wdata : Word64) : TableRow.Statement (.wrBadsizeH off wdata) :=
  ⟨_, rfl, (packSelector_high _ _ off _).trans (by decide)⟩
theorem TableRow.wrBadsizeD (off : Word64) (wdata : Word64) : TableRow.Statement (.wrBadsizeD off wdata) :=
  ⟨_, rfl, (packSelector_high _ _ off _).trans (by decide)⟩
theorem TableRow.irqQuery : TableRow.Statement .irqQuery := ⟨_, rfl, by decide⟩
theorem TableRow.diskInit (image : List Byte) : TableRow.Statement (.diskInit image) := 
  ⟨_, rfl, (by decide : (1#2).setWidth 16 &&& 3#16 = 1#16)⟩
theorem TableRow.reset : TableRow.Statement .reset := ⟨_, rfl, by decide⟩
theorem TableRow.dmaBase : TableRow.Statement .dmaBase := ⟨_, rfl, by decide⟩
theorem TableRow.dmaFill : TableRow.Statement .dmaFill := ⟨_, rfl, by decide⟩
theorem TableRow.dmaHead : TableRow.Statement .dmaHead := ⟨_, rfl, by decide⟩
theorem TableRow.dmaDesc0 : TableRow.Statement .dmaDesc0 := ⟨_, rfl, by decide⟩
theorem TableRow.dmaDesc1 : TableRow.Statement .dmaDesc1 := ⟨_, rfl, by decide⟩
theorem TableRow.dmaSector : TableRow.Statement .dmaSector := ⟨_, rfl, by decide⟩
theorem TableRow.dmaCopyG2d : TableRow.Statement .dmaCopyG2d := ⟨_, rfl, by decide⟩
theorem TableRow.dmaCopyD2g : TableRow.Statement .dmaCopyD2g := ⟨_, rfl, by decide⟩
theorem TableRow.dmaId : TableRow.Statement .dmaId := ⟨_, rfl, by decide⟩
theorem TableRow.dmaUsed : TableRow.Statement .dmaUsed := ⟨_, rfl, by decide⟩
theorem TableRow.descRead (a : Addr) : TableRow.Statement (.descRead a) := rfl
theorem TableRow.diskRdb (off : Nat) : TableRow.Statement (.diskRdb off) := rfl
theorem TableRow.diskWrb (off : Nat) (b : Byte) : TableRow.Statement (.diskWrb off b) := rfl

end Sys2Proof.Laws
end

