-- ==== Sys2Proof/Tests/Slice0.lean ====
section
/-! SUPPORT. The author's tests. Expected values come from spec/95_test_vectors.md (the vector is named) or are
worked out by hand from the rule named; `witness_` theorems show a concrete case for every hypothesis of an
obligation. -/

open Sys2Proof Sys2Proof.Machine Sys2Proof.Safety

namespace Sys2Proof.Tests

-- One theorem at a time: side by side, the kernel evaluations below hold more threads than the memory limit allows.
set_option Elab.async false

/-! ## Helpers -/

/-- A projection of the next state, `none` if there is none. -/
def got {α : Type} (o : Host.Outcome State Fault Refusal) (f : State → α) : Option α :=
  match o with
  | .next t => some (f t)
  | _ => none

/-- Whether the outcome is a next state. -/
def runs (o : Host.Outcome State Fault Refusal) : Bool := (got o fun _ => ()).isSome

/-- The refusal, if it is one. -/
def refusal (o : Host.Outcome State Fault Refusal) : Option Refusal :=
  match o with
  | .refused r => some r
  | _ => none

/-- What `runs` says. -/
theorem runs_next {o : Host.Outcome State Fault Refusal} (h : runs o = true) : ∃ t, o = .next t := by
  cases o with
  | next t => exact ⟨t, rfl⟩
  | fault r => simp [runs, got] at h
  | refused r => simp [runs, got] at h

/-- The reset state in a phase. -/
def atPhase (p : Phase) : State := { State.reset with pc := p }

/-- The reset state with a policy of its own. -/
def withPolicy (b : BadsizePolicy) : State := { State.reset with params := { badsizePolicy := b } }

/-- The queue of program P2: descriptor 0 at 0x1000 (address 0x3000, next 1), descriptor 1 at 0x1010 with the
given address (two low bytes), length and flags; every other byte 0, so `fill`, `head` and the sector are 0. -/
def queue (lo hi len flags : Byte) (disk : List Byte) : State :=
  { State.reset with
    qpfn := 1
    pgsz := 0x1000
    disk := disk
    running := true
    mem := writeBytes [] 0x1000 ([0x00, 0x30, 0, 0, 0, 0, 0, 0, 0x10, 0, 0, 0, 1, 0, 1, 0] ++
      [lo, hi, 0, 0, 0, 0, 0, 0, len, 0, 0, 0, flags, 0, 0, 0]) }

/-- Disk to guest: 2 bytes to 0x4000. -/
def toGuest : State := queue 0x00 0x40 2 2 [0xAA, 0xBB, 0xCC]

/-- Guest to disk: 2 bytes from 0x1000. -/
def toDisk : State := queue 0x00 0x10 2 0 [0xAA, 0xBB, 0xCC]

/-- The state with the bus of program P4: RAM below 0x8000 only. -/
def halfBus (s : State) : State := { s with regions := [⟨0, 0x8000, .ram⟩] }

/-- The copy phase at byte `i` of a 2-byte buffer at 0x4000, sector 0. -/
def copying (flags : BitVec 16) (i : BitVec 33) (disk : List Byte) : State :=
  { State.reset with
    pc := .copy
    disk := disk
    mem := [(0x4001, 0x5A)]
    xfer := { Xfer.blank with d1 := { address := 0x4000, length := 2, flags := flags, next := 0 }, i := i } }

/-! ## Well-formedness -/

/-- RD.ZERO at an offset with a row of its own is ill formed (R110): all nine. -/
theorem test_wellFormed_refuses_rdZero :
    readSet.all (fun off => !(Instr.rdZero off).wellFormed) = true ∧ (Instr.rdZero 0x028).wellFormed = true := by
  decide

/-- WR.NOP at an offset with a row of its own is ill formed (R129): all eight. -/
theorem test_wellFormed_refuses_wrNop :
    writeSet.all (fun off => !(Instr.wrNop off 5).wellFormed) = true ∧ (Instr.wrNop 0x000 5).wellFormed = true := by
  decide

/-- An offset of 12 bits fits the selector word (R71), one of 13 does not. -/
theorem test_fitsSelector : (Instr.rdZero 0xFFF).fitsSelector = true ∧
    (Instr.rdZero 0x1000).fitsSelector = false ∧ (Instr.wrBadsizeD 0x1000 0).fitsSelector = false := by decide

/-! ## Decoding: words written out from R71, R74, R20 and R90 -/

/-- The reads: bit 15 = 0, sz = 10, we = 0, offset. -/
theorem test_decode_reads :
    decodeSelector 0b0100000000000000 0 = .ok .rdMagic ∧ decodeSelector 0b0100000000000100 0 = .ok .rdVersion ∧
    decodeSelector 0b0100000000001000 0 = .ok .rdDevid ∧ decodeSelector 0b0100000000001100 0 = .ok .rdVendor ∧
    decodeSelector 0b0100000000010000 0 = .ok .rdDevfeat ∧ decodeSelector 0b0100000000100000 0 = .ok .rdDrvfeat ∧
    decodeSelector 0b0100000000110100 0 = .ok .rdQnummax ∧ decodeSelector 0b0100000001000000 0 = .ok .rdQpfn ∧
    decodeSelector 0b0100000001110000 0 = .ok .rdStatus ∧
    decodeSelector 0b0100000001000001 0 = .ok (.rdZero 0x041) := ⟨rfl, rfl, rfl, rfl, rfl, rfl, rfl, rfl, rfl, rfl⟩

/-- The writes: bit 15 = 0, sz = 10, we = 1, offset. -/
theorem test_decode_writes (v : Word64) :
    decodeSelector 0b0101000000010000 v = .ok (.wrDevfeat v) ∧ decodeSelector 0b0101000000100000 v = .ok (.wrDrvfeat v) ∧
    decodeSelector 0b0101000000101000 v = .ok (.wrPgsz v) ∧ decodeSelector 0b0101000000110000 v = .ok (.wrQsel v) ∧
    decodeSelector 0b0101000000111000 v = .ok (.wrQnum v) ∧ decodeSelector 0b0101000001000000 v = .ok (.wrQpfn v) ∧
    decodeSelector 0b0101000001010000 v = .ok (.wrNotify v) ∧ decodeSelector 0b0101000001110000 v = .ok (.wrStatus v) ∧
    decodeSelector 0b0101000001010001 v = .ok (.wrNop 0x051 v) := ⟨rfl, rfl, rfl, rfl, rfl, rfl, rfl, rfl, rfl⟩

/-- The wrong sizes: sz = 00, 01, 11; and bit 15 set is no selector word. -/
theorem test_decode_badsizes (v : Word64) :
    decodeSelector 0b0000000000000000 v = .ok (.rdBadsizeB 0) ∧ decodeSelector 0b0010000000000000 v = .ok (.rdBadsizeH 0) ∧
    decodeSelector 0b0110000000000000 v = .ok (.rdBadsizeD 0) ∧
    decodeSelector 0b0001000001010000 v = .ok (.wrBadsizeB 0x050 v) ∧
    decodeSelector 0b0011000001010000 v = .ok (.wrBadsizeH 0x050 v) ∧
    decodeSelector 0b0111000001010000 v = .ok (.wrBadsizeD 0x050 v) ∧
    decodeSelector 0b1100000000000000 v = .error .reservedBit := ⟨rfl, rfl, rfl, rfl, rfl, rfl, rfl⟩

/-- The port codes, and the phase words `dir ++ pc`: `dir` matters in phase 7 only. -/
theorem test_decode_ports_and_phases :
    decodePort 0b00 [] = .ok .irqQuery ∧ decodePort 0b01 [7] = .ok (.diskInit [7]) ∧ decodePort 0b10 [] = .ok .reset ∧
    decodePort 0b11 [] = .error .unusedPortCode ∧
    decodeSeq 0b00001 = .ok .dmaBase ∧ decodeSeq 0b10010 = .ok .dmaFill ∧ decodeSeq 0b00011 = .ok .dmaHead ∧
    decodeSeq 0b00100 = .ok .dmaDesc0 ∧ decodeSeq 0b10101 = .ok .dmaDesc1 ∧ decodeSeq 0b00110 = .ok .dmaSector ∧
    decodeSeq 0b00111 = .ok .dmaCopyG2d ∧ decodeSeq 0b10111 = .ok .dmaCopyD2g ∧ decodeSeq 0b01000 = .ok .dmaId ∧
    decodeSeq 0b01001 = .ok .dmaUsed ∧ decodeSeq 0b00000 = .error .idlePhase ∧
    decodeSeq 0b01110 = .error .unusedPhase ∧ decodeSeq 0b01111 = .error .deadPhase :=
  ⟨rfl, rfl, rfl, rfl, rfl, rfl, rfl, rfl, rfl, rfl, rfl, rfl, rfl, rfl, rfl, rfl, rfl⟩

/-- A table word, and the step that runs it first after reset (RD.VERSION answers 1, R101). -/
theorem test_tableWord : decodeTableWord 16 0x4004 = some .rdVersion ∧ decodeTableWord 8 0x17 = some .dmaCopyD2g ∧
    got (step (State.reset.withFetchWord 16 0x4004)) (·.answer) = some (.rdata 1) ∧
    got (step (State.reset.withFetchWord 8 8)) (·.id) = some 1 := by decide +kernel

/-- Port code 3 is refused by the step (R74). -/
theorem test_step_unusedPortCode : refusal (step (State.reset.withFetchWord 2 3)) = some .unusedPortCode := by
  decide +kernel

/-! ## Register reads and writes -/

/-- V-RD1 to V-RD5, V-RD7, V-RD10. -/
theorem test_reads_at_reset :
    got (exec .rdMagic State.reset) (·.answer) = some (.rdata 0x74726976) ∧
    got (exec .rdVersion State.reset) (·.answer) = some (.rdata 1) ∧
    got (exec .rdDevid State.reset) (·.answer) = some (.rdata 2) ∧
    got (exec .rdVendor State.reset) (·.answer) = some (.rdata 0x554D4551) ∧
    got (exec .rdDevfeat State.reset) (·.answer) = some (.rdata 0) ∧
    got (exec .rdQnummax State.reset) (·.answer) = some (.rdata 8) ∧
    got (exec (.rdZero 0x028) { State.reset with pgsz := 4096 }) (·.answer) = some (.rdata 0) := by decide +kernel

/-- V-RD8, V-RD11, V-RD12. -/
theorem test_reads_of_registers :
    got (exec .rdDrvfeat { State.reset with drvfeat := 0x123 }) (·.answer) = some (.rdata 0x123) ∧
    got (exec .rdQpfn { State.reset with qpfn := 0x80001 }) (·.answer) = some (.rdata 0x80001) ∧
    got (exec .rdStatus { State.reset with status := 0xF }) (·.answer) = some (.rdata 0xF) := by decide +kernel

/-- V-RD19, V-WR10, with the codes 5 and 7 of D23. -/
theorem test_wrong_sizes :
    got (exec (.rdBadsizeB 0) State.reset) (·.answer) = some (.sizeFault .load 0x10001000 5) ∧
    got (exec (.rdBadsizeH 0) State.reset) (·.answer) = some (.sizeFault .load 0x10001000 5) ∧
    got (exec (.rdBadsizeD 0) State.reset) (·.answer) = some (.sizeFault .load 0x10001000 5) ∧
    got (exec (.wrBadsizeB 0x50 0) State.reset) (·.answer) = some (.sizeFault .store 0x10001050 7) ∧
    got (exec (.wrBadsizeH 0x50 0) State.reset) (·.answer) = some (.sizeFault .store 0x10001050 7) ∧
    got (exec (.wrBadsizeD 0x50 0) State.reset) (fun t => (t.answer, irqLevel t)) =
      some (.sizeFault .store 0x10001050 7, false) := by decide +kernel

/-- V-WR1 to V-WR6, V-WR11. -/
theorem test_writes :
    got (exec (.wrDevfeat 0xDEADBEEF) State.reset) (·.drvfeat) = some 0xDEADBEEF ∧
    got (exec (.wrDrvfeat 0x22) { State.reset with drvfeat := 0x11 }) (·.drvfeat) = some 0x11 ∧
    got (exec (.wrPgsz 0x2000) { State.reset with pgsz := 0x1000 }) (·.pgsz) = some 0x2000 ∧
    got (exec (.wrQsel 0xFFFFFFFF) State.reset) (fun t => (t.qsel, t.qnum)) = some (0xFFFFFFFF, 0) ∧
    got (exec (.wrQnum 256) State.reset) (fun t => (t.qsel, t.qnum)) = some (0, 256) ∧
    got (exec (.wrQpfn 0x100000002) State.reset) (·.qpfn) = some 2 ∧
    got (exec (.wrNop 0x064 1) toGuest) (fun t => (t.mem, t.id)) = some (toGuest.mem, 0) := by decide +kernel

/-- V-WR8: Status 0 clears nothing else. -/
theorem test_status_zero_clears_nothing_else :
    got (exec (.wrStatus 0) { State.reset with qpfn := 5, drvfeat := 9, status := 3, notifyValid := true })
      (fun t => (t.status, t.qpfn, t.drvfeat, irqLevel t)) = some (0, 5, 9, true) := by decide +kernel

/-! ## The other ports -/

/-- V-Q2: the query answers 1 and clears; a second one answers 0. -/
theorem test_query :
    got (exec .irqQuery { State.reset with notifyValid := true }) (fun t => (t.answer, t.notifyValid)) =
      some (.query true, false) ∧
    got (exec .irqQuery State.reset) (·.answer) = some (.query false) := by decide +kernel

/-- V-K4: a second image is appended. -/
theorem test_diskInit : got (exec (.diskInit [0xBB, 0xCC]) { State.reset with disk := [0xAA] }) (·.disk) =
    some [0xAA, 0xBB, 0xCC] := by decide +kernel

/-- R250: RESET clears the registers and the disk. -/
theorem test_reset : got (exec .reset { State.reset with qpfn := 5, id := 3, notifyValid := true, disk := [1] })
    (fun t => (t.qpfn, t.id, t.notifyValid, t.disk)) = some (0, 0, false, []) := by decide +kernel

/-! ## Sequencer phases -/

/-- V-WR7: the table addresses of the largest registers. -/
theorem test_base : got (exec .dmaBase { atPhase .base with qpfn := 0xFFFFFFFF, pgsz := 0xFFFFFFFF })
    (fun t => (t.xfer.base, t.xfer.avail, t.xfer.used)) =
    some (0xFFFFFFFE00000001, 0xFFFFFFFE00000041, 0xFFFFFFFE00001001) := by decide +kernel

/-- V-A2: fill 0x000B, slot 3. -/
theorem test_fill : got (exec .dmaFill { atPhase .fill with
      mem := [(0x1041, 0x0B), (0x1045, 2)], xfer := { Xfer.blank with avail := 0x1040 } })
    (fun t => (t.xfer.fill, t.xfer.slot)) = some (0x000B, 3) := by decide +kernel

/-- V-A4: slot 7 is read at 0x1049, head 7. -/
theorem test_head : got (exec .dmaHead { atPhase .head with
      mem := [(0x1041, 0xFF), (0x1042, 0xFF), (0x1049, 7)], xfer := { Xfer.blank with avail := 0x1040, slot := 7 } })
    (fun t => (t.xfer.head, t.busLog)) = some (7, [.load 0x1049 .h]) := by decide +kernel

/-- V-D1 as entry 0 of the table at 0x1000. -/
theorem test_desc0 : got (exec .dmaDesc0 { toGuest with pc := .desc0, xfer := { Xfer.blank with base := 0x1000 } })
    (·.xfer.d0) = some ⟨0x3000, 16, 1, 1⟩ := by decide +kernel

/-- The entry `d0.next` of the table, whatever the flags of #0 say (R165). -/
theorem test_desc1 : got (exec .dmaDesc1 { toGuest with
      pc := .desc1, xfer := { Xfer.blank with base := 0x1000, d0 := ⟨0, 0, 0, 1⟩ } })
    (·.xfer.d1) = some ⟨0x4000, 2, 2, 0⟩ := by decide +kernel

/-- The sector of program P3's header: 1, at offset 8. -/
theorem test_sector : got (exec .dmaSector { atPhase .sector with
      mem := [(0x5000, 1), (0x5008, 1)], xfer := { Xfer.blank with d0 := ⟨0x5000, 16, 1, 1⟩ } })
    (fun t => (t.xfer.sector, t.pc)) = some (1, .copy) := by decide +kernel

/-- One byte guest to disk (R168), and V-C5: offset 2^64 is past the end, not 0. -/
theorem test_copyG2d :
    got (exec .dmaCopyG2d (copying 0 1 [0xAA, 0xBB, 0xCC])) (fun t => (t.disk, t.xfer.i)) =
      some ([0xAA, 0x5A, 0xCC], 2) ∧
    got (exec .dmaCopyG2d { copying 0 0 [0xAA] with
        xfer := { Xfer.blank with d1 := ⟨0x4000, 1, 0, 0⟩, sector := 0x80000000000000 } })
      (fun t => (t.pc, t.answer)) = some (.dead, .noAnswer 0x10000000000000000) := by decide +kernel

/-- One byte disk to guest (R169), and V-C7: the first write at the top of the address space faults. -/
theorem test_copyD2g :
    got (exec .dmaCopyD2g (copying 2 1 [0xAA, 0xBB, 0xCC])) (fun t => (t.mem, t.disk)) =
      some ([(0x4001, 0xBB)], [0xAA, 0xBB, 0xCC]) ∧
    got (exec .dmaCopyD2g { copying 2 0 [0xAA] with
        xfer := { Xfer.blank with d1 := ⟨0xFFFFFFFFFFFFFFFE, 4, 2, 0⟩ } })
      (fun t => (t.pc, t.answer)) = some (.idle, .busFault .store 0xFFFFFFFFFFFFFFFE 7) := by decide +kernel

/-- V-U2: the id counter wraps. -/
theorem test_id : got (exec .dmaId { atPhase .id with id := 0xFFFFFFFFFFFFFFFF }) (·.id) = some 0 := by
  decide +kernel

/-- V-U1, id 10, and V-U4: 02 00 at the field, its neighbours keep 0x55. -/
theorem test_used : got (exec .dmaUsed { atPhase .used with
      id := 10, mem := [(0x2001, 0x55), (0x2003, 0x55), (0x2004, 0x55)]
      xfer := { Xfer.blank with used := 0x2000 } })
    (fun t => (t.mem, t.pc)) = some ([(0x2001, 0x55), (0x2002, 2), (0x2004, 0x55)], .idle) := by decide +kernel

/-! ## Primitives -/

/-- V-D3, and V-D5: the second read is refused. -/
theorem test_descRead :
    got (exec (.descRead 0x100) { State.reset with mem := (writeBytes [] 0x100
      [0xEF, 0xCD, 0xAB, 0x89, 0x67, 0x45, 0x23, 0x01, 0xFF, 0xFF, 0xFF, 0xFF, 0xFF, 0xFF, 0xFE, 0xFF]) }) (·.answer) =
      some (.descriptor ⟨0x0123456789ABCDEF, 0xFFFFFFFF, 0xFFFF, 0xFFFE⟩) ∧
    got (exec (.descRead 0xFFF8) State.reset) (fun t => (t.answer, t.busLog)) =
      some (.busFault .load 0x10000 5, [.load 0x10000 .w, .load 0xFFF8 .d]) := by decide +kernel

/-- V-K1, and V-K5: reading past the end. -/
theorem test_diskRdb :
    got (exec (.diskRdb 2) { State.reset with disk := [0x03, 0x0A, 0x11, 0x18] }) (·.answer) = some (.diskByte 0x11) ∧
    got (exec (.diskRdb 0) State.reset) (fun t => (t.pc, t.answer)) = some (.dead, .noAnswer 0) := by decide +kernel

/-- V-K3 in small: a write at the length neither writes nor grows. -/
theorem test_diskWrb :
    got (exec (.diskWrb 1 0) { State.reset with disk := [1, 2] }) (·.disk) = some [1, 0] ∧
    got (exec (.diskWrb 2 0) { State.reset with disk := [1, 2] }) (fun t => (t.disk, t.pc)) = some ([1, 2], .dead) := by
  decide +kernel

/-! ## Whole transfers -/

/-- V-C4: the buffer lies over the used ring, whose write comes last: AA BB 01 00. -/
theorem test_notify_used_write_is_last :
    got (exec (.wrNotify 0) (queue 0x00 0x20 4 2 [0xAA, 0xBB, 0xCC, 0xDD]))
      (fun t => (readBytes t.mem 0x2000 4, t.id, t.answer)) = some ([0xAA, 0xBB, 0x01, 0x00], 1, .done) := by
  decide +kernel

/-- V-C1 and V-F1: a length of 0 completes on an empty disk; a bus without 0x1000 faults in T_FILL. -/
theorem test_notify_edges :
    got (exec (.wrNotify 0) (queue 0x00 0x40 0 2 [])) (fun t => (t.id, readBytes t.mem 0x2002 2)) =
      some (1, [0x01, 0x00]) ∧
    got (exec (.wrNotify 0) { toGuest with regions := [⟨0, 0x1000, .ram⟩] })
      (fun t => (t.answer, t.id, irqLevel t)) = some (.busFault .load 0x1041 5, 0, true) := by decide +kernel

/-! ## Witnesses of the obligations' hypotheses -/

/-- The state with one request in the inbox. -/
def asking (e : Event) (s : State) : State := { s with inbox := [e] }

/-- RD.VERSION as a request of port S. -/
def askVersion : Event := .slave false .w 0x10001004 0

/-- EveryStepKeepsInvariant, EveryStepKeepsParametersAndBusMap, RunningStepsKeepDiskLength. -/
theorem witness_step :
    Inv (asking askVersion toGuest) ∧ (asking askVersion toGuest).running = true ∧
    ∃ t, step (asking askVersion toGuest) = .next t :=
  ⟨by unfold Safety.Inv Settled; decide +kernel, rfl, runs_next (by decide +kernel)⟩

/-- Every statement whose hypothesis is `pc = IDLE`, and DiskInit and Creation before and in the run. -/
theorem witness_idle : State.reset.pc = .idle ∧ State.reset.running = false ∧
    toGuest.pc = .idle ∧ toGuest.running = true := ⟨rfl, rfl, rfl, rfl⟩

/-- ReadsElsewhereAnswerZero, WritesElsewhereChangeNothing: next to, between and far from the rows. -/
theorem witness_elsewhere :
    (0x001 : Word64) ∉ readSet ∧ (0x028 : Word64) ∉ readSet ∧ (0xFFC : Word64) ∉ readSet ∧
    (0x000 : Word64) ∉ writeSet ∧ (0x051 : Word64) ∉ writeSet ∧ (0xFFC : Word64) ∉ writeSet ∧
    ((0x4028 : BitVec 16) &&& 0xF000 = 0x4000 ∧ ((0x4028 : BitVec 16) &&& 0x0FFF).setWidth 64 = (0x028 : Word64)) ∧
    ((0x5051 : BitVec 16) &&& 0xF000 = 0x5000 ∧ ((0x5051 : BitVec 16) &&& 0x0FFF).setWidth 64 = (0x051 : Word64)) := by
  decide

/-- WrongSizeAccessesFaultOrAreIgnored: both policies. -/
theorem witness_policies :
    (withPolicy .fault).pc = .idle ∧ (withPolicy .fault).params.badsizePolicy = .fault ∧
    (withPolicy .zero).pc = .idle ∧ (withPolicy .zero).params.badsizePolicy = .zero := ⟨rfl, rfl, rfl, rfl⟩

/-- WrittenRegistersReadBack: each write runs, with each of the two write offsets chosen. -/
theorem witness_readBack :
    (∃ t, exec (.wrQpfn 0xA5A5A5A5) State.reset = .next t) ∧ (∃ t, exec (.wrStatus 0xF) State.reset = .next t) ∧
    (State.reset.params.drvfeatAt010 = true ∧ ∃ t, exec (.wrDevfeat 1) State.reset = .next t) ∧
    (let s := { State.reset with params := { drvfeatAt020 := true } }
     s.pc = .idle ∧ s.params.drvfeatAt020 = true ∧ ∃ t, exec (.wrDrvfeat 1) s = .next t) :=
  ⟨⟨_, rfl⟩, ⟨_, rfl⟩, ⟨rfl, _, rfl⟩, rfl, rfl, _, rfl⟩

/-- PendingIsReportedOncePerNotify, and the statements whose hypothesis is a next state of WR.NOTIFY. -/
theorem witness_notify : ∃ t, exec (.wrNotify 0) toGuest = .next t ∧ t.pc = .idle := by
  obtain ⟨t, h⟩ := runs_next (o := exec (.wrNotify 0) toGuest) (by decide +kernel)
  have hp : got (exec (.wrNotify 0) toGuest) (·.pc) = some .idle := by decide +kernel
  rw [h] at hp
  exact ⟨t, h, by simpa [got] using hp⟩

/-- OnlyNotifyQueryAndResetMovePending: the bit rises on a notify, falls on the query and on RESET. -/
theorem witness_pending :
    got (exec (.wrNotify 0) toGuest) (fun t => irqLevel t != irqLevel toGuest) = some true ∧
    (let s := { State.reset with notifyValid := true }
     got (exec .irqQuery s) (fun t => irqLevel t != irqLevel s) = some true ∧
     got (exec .reset s) (fun t => irqLevel t != irqLevel s) = some true) := by decide +kernel

/-- FillPhaseReadsIndexAndSlot: served and refused; V-A1's address. -/
theorem witness_fill :
    (let s := { atPhase .fill with xfer := { Xfer.blank with avail := 0x1040 } }
     s.pc = .fill ∧ serves s (s.xfer.avail + s.params.availIdxOff) 2 = true) ∧
    (let s := { atPhase .fill with xfer := { Xfer.blank with avail := 0xFFFE } }
     s.pc = .fill ∧ refuses s (s.xfer.avail + s.params.availIdxOff) 2 = true) := by decide +kernel

/-- HeadPhaseReadsTheSlot: slot 7 of V-A4 served; an address past the bus refused. -/
theorem witness_head :
    (let s := { atPhase .head with xfer := { Xfer.blank with avail := 0x1040, slot := 7 } }
     s.pc = .head ∧ (0x1049 : Addr) =
       s.xfer.avail + s.params.availRingOff + s.params.availSlotStride * s.xfer.slot.setWidth 64 ∧
     serves s 0x1049 2 = true) ∧
    (let s := { atPhase .head with xfer := { Xfer.blank with avail := 0xFFFD } }
     s.pc = .head ∧ (0xFFFF : Addr) =
       s.xfer.avail + s.params.availRingOff + s.params.availSlotStride * s.xfer.slot.setWidth 64 ∧
     refuses s 0xFFFF 2 = true) := by decide +kernel

/-- DescriptorPhasesReadTheTableEntries, DescReadAnswersTheRecord: entries 0 and 1 of the table. -/
theorem witness_descriptors :
    (let s := { toGuest with pc := .desc0, xfer := { Xfer.blank with base := 0x1000 } }
     planBytes s.params.descReadPlan = 16 ∧ s.pc = .desc0 ∧ s.pc ≠ .dead ∧
     (0x1000 : Addr) = s.xfer.base + BitVec.ofNat 64 (16 * s.xfer.head.toNat) ∧
     servesPlan s s.params.descReadPlan 0x1000 = true) ∧
    (let s := { toGuest with pc := .desc1, xfer := { Xfer.blank with base := 0x1000, d0 := ⟨0, 0, 0, 1⟩ } }
     planBytes s.params.descReadPlan = 16 ∧ s.pc = .desc1 ∧
     (0x1010 : Addr) = s.xfer.base + BitVec.ofNat 64 (16 * s.xfer.d0.next.toNat) ∧
     servesPlan s s.params.descReadPlan 0x1010 = true) := by decide +kernel

/-- DescReadStopsAtTheFirstRefusedRead: V-D5's address, the second read refused, in each of the three forms. -/
theorem witness_descReadStops :
    State.reset.params.descReadPlan = [Size.d] ++ Size.w :: [.h, .h] ∧
    (let ok := fun s : State => servesPlan s [.d] 0xFFF8 = true ∧
       (0x10000 : Addr) = 0xFFF8 + BitVec.ofNat 64 (planBytes [.d]) ∧ refuses s 0x10000 Size.w.bytes = true
     ok State.reset ∧ State.reset.pc ≠ .dead ∧
     (let s := { atPhase .desc0 with xfer := { Xfer.blank with base := 0xFFF8 } }
      ok s ∧ s.pc = .desc0 ∧ (0xFFF8 : Addr) = descAddr s.xfer.base s.xfer.head) ∧
     (let s := { atPhase .desc1 with xfer := { Xfer.blank with base := 0xFFF8 } }
      ok s ∧ s.pc = .desc1 ∧ (0xFFF8 : Addr) = descAddr s.xfer.base s.xfer.d0.next)) := by decide +kernel

/-- SectorPhaseReadsTheHeaderField: the last 8 bytes of the bus, and one byte beyond. -/
theorem witness_sector :
    (let s := { atPhase .sector with xfer := { Xfer.blank with d0 := ⟨0xFFF0, 16, 1, 1⟩ } }
     s.pc = .sector ∧ (0xFFF8 : Addr) = s.xfer.d0.address + 8 ∧ serves s 0xFFF8 8 = true) ∧
    (let s := { atPhase .sector with xfer := { Xfer.blank with d0 := ⟨0xFFF1, 16, 1, 1⟩ } }
     s.pc = .sector ∧ (0xFFF9 : Addr) = s.xfer.d0.address + 8 ∧ refuses s 0xFFF9 8 = true) := by decide +kernel

/-- CopyGuestToDiskMovesOneByte: the four clauses, at the last byte, past the disk, refused, and at the end. -/
theorem witness_copyG2d :
    (let s := copying 0 1 [0xAA, 0xBB]
     s.pc = .copy ∧ s.xfer.d1.flags.getLsbD 1 = false ∧ (0x4001 : Addr) = s.xfer.d1.address + s.xfer.i.setWidth 64 ∧
     1 = s.xfer.sector.toNat * 512 + s.xfer.i.toNat ∧ s.xfer.i.toNat < s.xfer.d1.length.toNat ∧
     serves s 0x4001 1 = true ∧ 1 < s.disk.length) ∧
    (let s := copying 0 1 [0xAA]
     s.pc = .copy ∧ s.xfer.i.toNat < s.xfer.d1.length.toNat ∧ serves s 0x4001 1 = true ∧ s.disk.length ≤ 1) ∧
    (let s := { copying 0 1 [0xAA] with regions := [⟨0, 0x4001, .ram⟩] }
     s.pc = .copy ∧ s.xfer.i.toNat < s.xfer.d1.length.toNat ∧ refuses s 0x4001 1 = true) ∧
    (let s := copying 0 2 [0xAA]
     s.pc = .copy ∧ s.xfer.d1.length.toNat ≤ s.xfer.i.toNat) := by decide +kernel

/-- CopyDiskToGuestMovesOneByte: its four clauses. -/
theorem witness_copyD2g :
    (let s := copying 2 1 [0xAA, 0xBB]
     s.mem.wf = true ∧ s.pc = .copy ∧ s.xfer.d1.flags.getLsbD 1 = true ∧
     (0x4001 : Addr) = s.xfer.d1.address + s.xfer.i.setWidth 64 ∧
     1 = s.xfer.sector.toNat * 512 + s.xfer.i.toNat ∧ s.xfer.i.toNat < s.xfer.d1.length.toNat ∧
     s.disk[1]? = some 0xBB ∧ serves s 0x4001 1 = true) ∧
    (let s := { copying 2 1 [0xAA, 0xBB] with regions := [⟨0, 0x4001, .ram⟩] }
     s.mem.wf = true ∧ s.disk[1]? = some 0xBB ∧ refuses s 0x4001 1 = true) ∧
    (let s := copying 2 1 [0xAA]
     s.mem.wf = true ∧ s.xfer.i.toNat < s.xfer.d1.length.toNat ∧ s.disk.length ≤ 1) ∧
    (let s := copying 2 2 [0xAA]
     s.mem.wf = true ∧ s.pc = .copy ∧ s.xfer.d1.length.toNat ≤ s.xfer.i.toNat) := by decide +kernel

/-- IdPhaseTakesTheNextRequestId, BasePhaseComputesTheRegionAddresses. -/
theorem witness_id_and_base : (atPhase .id).pc = .id ∧ (atPhase .base).pc = .base := ⟨rfl, rfl⟩

/-- UsedPhaseWritesIdModEight: served, and with the field outside the bus (V-F4). -/
theorem witness_used :
    (let s := { atPhase .used with xfer := { Xfer.blank with used := 0x2000 } }
     s.mem.wf = true ∧ s.pc = .used ∧ (0x2002 : Addr) = s.xfer.used + 2 ∧ serves s 0x2002 2 = true) ∧
    (let s := { atPhase .used with xfer := { Xfer.blank with used := 0xFFFD } }
     s.mem.wf = true ∧ s.pc = .used ∧ (0xFFFF : Addr) = s.xfer.used + 2 ∧ refuses s 0xFFFF 2 = true) := by
  decide +kernel

/-- UsedFieldValuesCycleModuloEight: the smallest width, a start beyond it, the wrap after 7, in each of its clauses. -/
theorem witness_idWidth :
    (let s := { State.reset with params := { idWidth := 3, idReset := 9 } }
     3 ≤ s.params.idWidth ∧ got (exec .reset s) (·.id) = some 1) ∧
    (let s := { atPhase .id with params := { idWidth := 3, idReset := 9 }, id := 7 }
     s.id % 8 = (s.params.idReset + 6) % 8 ∧ got (exec .dmaId s) (·.id) = some 0) ∧
    (let s := { atPhase .used with id := 7 }
     s.id % 8 = (s.params.idReset + 7) % 8 ∧ runs (exec .dmaUsed s) = true) ∧
    toGuest.id % 8 = (toGuest.params.idReset + 0) % 8 ∧
    got (exec (.wrNotify 0) toGuest) (fun t => (t.answer, t.busLog.head?)) =
      some (.done, some (.store 0x2002 [1, 0])) := by decide +kernel

/-- DiskByteOperations, DiskReadReturnsTheLastWrite: the last offset and the length itself. -/
theorem witness_disk :
    (let s := { State.reset with disk := [1, 2] }
     s.pc ≠ .dead ∧ s.disk[1]? = some 2 ∧ 1 < s.disk.length ∧ s.disk.length ≤ 2 ∧
     s.disk[0]? = some 1 ∧ 0 ≠ 1 ∧ runs (exec (.diskWrb 1 7) s) = true) := by decide +kernel

/-- GuestMemoryReadsBackWhatWasWritten, DescriptorFieldsAreLittleEndian. -/
theorem witness_memory : Memory.wf toGuest.mem = true ∧ [(0xAA : Byte), 0xBB].length ≤ 2 ^ 64 ∧
    ∃ d, d = descOfBytes (readBytes toGuest.mem 0x1000 16) := ⟨by decide +kernel, by decide, _, rfl⟩

/-- WindowAccessesOfTheEngineReachTheRegisters: the first and the last byte of the window, both policies, in the copy
phase; a write of 1 byte and one of 2. -/
theorem witness_window :
    (copying 0 0 []).pc ≠ .idle ∧
    addrInWindow State.reset.params 0x10001000 = true ∧ addrInWindow State.reset.params 0x10001FFF = true ∧
    addrInWindow (withPolicy .zero).params 0x10001000 = true ∧ (Size.b ≠ .w) ∧
    [(1 : Byte)].length = 1 ∧ [(1 : Byte), 0].length = 2 := by decide +kernel

/-- PhasesTakeWhateverTheBusAnswers: each of its answers, by memory; what a `device` region answers is open. -/
theorem witness_busAnswers :
    (let s := { atPhase .fill with xfer := { Xfer.blank with avail := 0x7FFF } }
     s.pc = .fill ∧ (0x8000 : Addr) = s.xfer.avail + s.params.availIdxOff ∧
     busRead s 0x8000 .h = (some [0, 0], []) ∧ busRead (halfBus s) 0x8000 .h = (none, [])) ∧
    (let s := { atPhase .used with xfer := { Xfer.blank with used := 0x7FFE } }
     s.pc = .used ∧ (0x8000 : Addr) = s.xfer.used + 2 ∧
     busWrite s 0x8000 [BitVec.ofNat 8 (s.id % 8), 0] = (true, []) ∧
     busWrite (halfBus s) 0x8000 [BitVec.ofNat 8 (s.id % 8), 0] = (false, [])) ∧
    (let s := copying 0 1 [0, 0xBB]
     s.pc = .copy ∧ (0x4001 : Addr) = s.xfer.d1.address + s.xfer.i.setWidth 64 ∧
     s.xfer.i.toNat < s.xfer.d1.length.toNat ∧ 1 = s.xfer.sector.toNat * 512 + s.xfer.i.toNat ∧ 1 < s.disk.length ∧
     s.xfer.d1.flags.getLsbD 1 = false ∧ busRead s 0x4001 .b = (some [0x5A], [(0x4001, 0x5A)])) ∧
    (let s := copying 2 1 [0, 0xBB]
     s.xfer.d1.flags.getLsbD 1 = true ∧ s.disk[1]? = some 0xBB ∧
     busWrite s 0x4001 [0xBB] = (true, [(0x4001, 0xBB)])) := by decide +kernel

/-- PhasesTakeWhateverTheBusAnswers, the other reads: HEAD and SECTOR answered and refused, the copy refused, a byte
read past the end of the disk. -/
theorem witness_busAnswersToReads :
    (let s := { atPhase .head with xfer := { Xfer.blank with avail := 0x7FFE } }
     s.pc = .head ∧ (0x8000 : Addr) =
       s.xfer.avail + s.params.availRingOff + s.params.availSlotStride * s.xfer.slot.setWidth 64 ∧
     busRead s 0x8000 .h = (some [0, 0], []) ∧ busRead (halfBus s) 0x8000 .h = (none, [])) ∧
    (let s := { atPhase .sector with xfer := { Xfer.blank with d0 := ⟨0x7FF8, 16, 1, 1⟩ } }
     s.pc = .sector ∧ (0x8000 : Addr) = s.xfer.d0.address + 8 ∧
     busRead s 0x8000 .d = (some [0, 0, 0, 0, 0, 0, 0, 0], []) ∧ busRead (halfBus s) 0x8000 .d = (none, [])) ∧
    (let s := { copying 0 1 [0] with regions := [⟨0, 0x4001, .ram⟩] }
     s.disk.length ≤ 1 ∧ s.xfer.d1.flags.getLsbD 1 = false ∧ busRead s 0x4001 .b = (none, [(0x4001, 0x5A)])) ∧
    (let s := { copying 2 1 [0, 0xBB] with regions := [⟨0, 0x4001, .ram⟩] }
     s.disk[1]? = some 0xBB ∧ busWrite s 0x4001 [0xBB] = (false, [(0x4001, 0x5A)])) := by decide +kernel

/-- A descriptor phase with the table at `base`. -/
def reading (p : Phase) (base : Addr) : State := { atPhase p with xfer := { Xfer.blank with base := base } }

/-- Whether the bus answers the whole plan at 0x100, and whether it refuses the 4-byte read after the 8-byte one at
the end of its RAM (V-D5's address). -/
def planBoth (s : State) : Bool :=
  (planAnswers s s.params.descReadPlan 0x100).isSome &&
  (planAnswers s [.d] 0xFFF8).map (fun r => busRead r.2 0x10000 .w) == some (none, [])

/-- PhasesTakeWhateverTheBusAnswers, the descriptor reads: the whole plan answered, and its second read refused, as
the operand of DESC.READ, in T_DESC0 and in T_DESC1. -/
theorem witness_planAnswers :
    State.reset.params.descReadPlan = [Size.d] ++ Size.w :: [.h, .h] ∧
    (0x10000 : Addr) = 0xFFF8 + BitVec.ofNat 64 (planBytes [.d]) ∧ State.reset.pc ≠ .dead ∧
    planBoth State.reset = true ∧ planBoth (reading .desc0 0xFFF8) = true ∧ planBoth (reading .desc1 0xFFF8) = true ∧
    (0xFFF8 : Addr) = (reading .desc0 0xFFF8).xfer.base +
      BitVec.ofNat 64 (16 * (reading .desc0 0xFFF8).xfer.head.toNat) ∧
    (0xFFF8 : Addr) = (reading .desc1 0xFFF8).xfer.base +
      BitVec.ofNat 64 (16 * (reading .desc1 0xFFF8).xfer.d0.next.toNat) := by decide +kernel

/-- Which accesses are a `device` region's, and which memory's (log 6): one that starts in RAM, one that ends in
RAM, and one beside it. -/
theorem test_touchesDevice :
    touchesDevice [⟨0, 4, .ram⟩, ⟨4, 4, .device⟩, ⟨8, 4, .ram⟩] 3 2 = true ∧
    touchesDevice [⟨0, 4, .ram⟩, ⟨4, 4, .device⟩, ⟨8, 4, .ram⟩] 7 2 = true ∧
    touchesDevice [⟨0, 4, .ram⟩, ⟨4, 4, .device⟩, ⟨8, 4, .ram⟩] 2 2 = false := by decide

/-- UnconfiguredNotifyIsRefused: both registers, each alone zero. -/
theorem witness_unconfigured :
    (let s := { State.reset with pgsz := 4096 }; s.pc = .idle ∧ s.qpfn = 0) ∧
    (let s := { State.reset with qpfn := 1 }; s.pc = .idle ∧ s.pgsz = 0) := ⟨⟨rfl, rfl⟩, rfl, rfl⟩

/-- TransferEndsInOneOfThreeWays; its three ends all occur. -/
theorem witness_threeWays :
    (toGuest.pc = .idle ∧ toGuest.qpfn ≠ 0 ∧ toGuest.pgsz ≠ 0) ∧
    got (exec (.wrNotify 0) toGuest) (fun t => (t.pc, t.answer)) = some (.idle, .done) ∧
    got (exec (.wrNotify 0) (halfBus (queue 0x00 0x80 1 2 [1]))) (fun t => (t.pc, t.answer)) =
      some (.idle, .busFault .store 0x8000 7) ∧
    got (exec (.wrNotify 0) (queue 0x00 0x40 1 2 [])) (fun t => (t.pc, t.answer)) = some (.dead, .noAnswer 0) := by
  decide +kernel

/-- TransferCopiesDiskToGuest, for two bytes and for none. -/
theorem witness_transferD2g :
    (Ready toGuest ∧ (chainD1 toGuest).flags.getLsbD 1 = true ∧ chainLength toGuest = 2 ∧ InBounds toGuest ∧
      servesBuffer toGuest (chainD1 toGuest) (chainLength toGuest) ∧ serves toGuest (usedField toGuest) 2 = true) ∧
    (let s := queue 0x00 0x40 0 2 []
     Ready s ∧ (chainD1 s).flags.getLsbD 1 = true ∧ chainLength s = 0 ∧ InBounds s ∧
      servesBuffer s (chainD1 s) (chainLength s) ∧ serves s (usedField s) 2 = true) := by
  unfold Ready InBounds servesBuffer
  decide +kernel

/-- TransferCopiesGuestToDisk. -/
theorem witness_transferG2d :
    Ready toDisk ∧ (chainD1 toDisk).flags.getLsbD 1 = false ∧ chainLength toDisk = 2 ∧ InBounds toDisk ∧
    servesBuffer toDisk (chainD1 toDisk) (chainLength toDisk) ∧ serves toDisk (usedField toDisk) 2 = true := by
  unfold Ready InBounds servesBuffer
  decide +kernel

/-- DiskToGuestFaultLeavesThePrefix and GuestToDiskFaultLeavesThePrefix: program P4's bus, refused at byte 1. -/
theorem witness_copyFaults :
    (let s := halfBus (queue 0xFF 0x7F 2 2 [1, 2])
     Ready s ∧ (chainD1 s).flags.getLsbD 1 = true ∧ 1 < chainLength s ∧ chainDiskOffset s + 1 < s.disk.length ∧
     servesBuffer s (chainD1 s) 1 ∧ (0x8000 : Addr) = (chainD1 s).address + BitVec.ofNat 64 1 ∧
     refuses s 0x8000 1 = true) ∧
    (let s := halfBus (queue 0xFF 0x7F 2 0 [1])
     Ready s ∧ (chainD1 s).flags.getLsbD 1 = false ∧ 1 < chainLength s ∧ chainDiskOffset s + 1 ≤ s.disk.length ∧
     servesBuffer s (chainD1 s) 1 ∧ (0x8000 : Addr) = (chainD1 s).address + BitVec.ofNat 64 1 ∧
     refuses s 0x8000 1 = true) := by
  unfold Ready servesBuffer
  decide +kernel

/-- DiskOverrunKillsTheDevice: both directions, overrun at byte 1, and at byte 0 of an empty disk (V-K5). -/
theorem witness_overrun :
    (let s := queue 0x00 0x40 2 2 [1]
     Ready s ∧ 1 < chainLength s ∧ chainDiskOffset s + 1 ≤ s.disk.length ∧ s.disk.length ≤ chainDiskOffset s + 1 ∧
     servesBuffer s (chainD1 s) 1 ∧ (chainD1 s).flags.getLsbD 1 = true) ∧
    (let s := queue 0x00 0x40 2 0 []
     Ready s ∧ 0 < chainLength s ∧ s.disk.length ≤ chainDiskOffset s + 0 ∧ servesBuffer s (chainD1 s) 0 ∧
     (chainD1 s).flags.getLsbD 1 = false ∧ serves s ((chainD1 s).address + BitVec.ofNat 64 0) 1 = true) := by
  unfold Ready servesBuffer
  decide +kernel

/-- UsedFieldFaultKeepsCopyAndId: V-F4's bus, both directions. -/
theorem witness_usedFault :
    (let s := { toGuest with regions := [⟨0, 0x2002, .ram⟩, ⟨0x2004, 0xDFFC, .ram⟩] }
     Ready s ∧ InBounds s ∧ servesBuffer s (chainD1 s) (chainLength s) ∧ refuses s (usedField s) 2 = true ∧
     (chainD1 s).flags.getLsbD 1 = true) ∧
    (let s := { toDisk with regions := [⟨0, 0x2002, .ram⟩, ⟨0x2004, 0xDFFC, .ram⟩] }
     Ready s ∧ InBounds s ∧ servesBuffer s (chainD1 s) (chainLength s) ∧ refuses s (usedField s) 2 = true ∧
     (chainD1 s).flags.getLsbD 1 = false) := by
  unfold Ready InBounds servesBuffer
  decide +kernel

/-- `toGuest` on a bus of these regions. -/
def onBus (rs : List Region) : State := { toGuest with regions := rs }

/-- ChainReadFaultMovesNothing: the refused read is the fill index, the slot, a read of descriptor 0, a read of
descriptor 1, the sector. -/
theorem witness_chainFault :
    ChainRefusedAt (onBus [⟨0, 0x1000, .ram⟩]) 0x1041 ∧
    ChainRefusedAt (onBus [⟨0x1041, 2, .ram⟩]) 0x1042 ∧
    ChainRefusedAt (onBus [⟨0x1041, 3, .ram⟩]) 0x1000 ∧
    ChainRefusedAt (onBus [⟨0x1041, 3, .ram⟩, ⟨0x1000, 0x18, .ram⟩]) 0x1018 ∧
    ChainRefusedAt (onBus [⟨0, 0x3000, .ram⟩]) 0x3008 := by
  refine ⟨.inl (by decide +kernel), .inr (.inl (by decide +kernel)),
    .inr (.inr (.inl ⟨by decide +kernel, by decide +kernel, [], [.w, .h, .h], .d, by decide +kernel⟩)),
    .inr (.inr (.inr (.inl ⟨by decide +kernel, by decide +kernel, by decide +kernel, by decide +kernel,
      [.d], [.h, .h], .w, by decide +kernel⟩))),
    .inr (.inr (.inr (.inr (by decide +kernel))))⟩

/-- OnlyTransfersTouchMemoryDiskAndId, BytesOutsideTheRecordedStoresAreUnchanged: memory, the disk and x[ID] do change
somewhere; no access of `toGuest` is on a device region; an access of DESC.READ can be. -/
theorem witness_touch :
    got (exec (.wrNotify 0) toGuest) (fun t => (t.mem != toGuest.mem, t.id != toGuest.id)) = some (true, true) ∧
    got (exec (.diskWrb 0 7) toGuest) (fun t => t.disk != toGuest.disk) = some true ∧
    got (exec (.wrNotify 0) toGuest) (fun t => t.busLog.all (fun acc => !onDevice toGuest acc)) = some true ∧
    onDevice { toGuest with regions := [⟨0x1008, 8, .device⟩] } (.load 0x1008 .w) = true := by decide +kernel

/-- DeadAnswersNothing, RequestsDuringATransferAreRefused, WithoutARequestNothingHappens. -/
theorem witness_phases : (atPhase .dead).pc = .dead ∧ (atPhase .fill).pc ≠ .idle ∧ (atPhase .fill).pc ≠ .dead ∧
    State.reset.inbox = [] := by decide

/-- StepRunsTheDecodedOperation: a transaction, the first and the last offset of the window, a port operation, a
phase. -/
theorem witness_stepRuns :
    (asking askVersion State.reset).inbox = .slave false .w 0x10001004 0 :: [] ∧
    decodeTransaction State.reset.params false .w 0x10001004 0 = .ok .rdVersion ∧
    ((0 : Word64).toNat < State.reset.params.virtioSize ∧
      (0x10001000 : Addr).toNat = State.reset.params.virtioBase.toNat + (0 : Word64).toNat) ∧
    ((0xFFF : Word64).toNat < State.reset.params.virtioSize ∧
      (0x10001FFF : Addr).toNat = State.reset.params.virtioBase.toNat + (0xFFF : Word64).toNat) ∧
    (asking (.port 0 []) State.reset).inbox = .port 0 [] :: [] ∧ decodePort 0 [] = .ok .irqQuery ∧
    decodeSeq (BitVec.ofBool ((copying 2 0 []).xfer.d1.flags.getLsbD 1) ++ (copying 2 0 []).pc.code) =
      .ok .dmaCopyD2g := ⟨rfl, rfl, by decide, by decide, rfl, rfl, rfl⟩

/-- OtherInputsTouchNoDeviceState: a driver's store; the addresses on both sides of the window. -/
theorem witness_otherInputs :
    (asking (.guestStore 0x4000 [1]) State.reset).inbox = .guestStore 0x4000 [1] :: [] ∧
    (0x10000FFF : Addr).toNat < State.reset.params.virtioBase.toNat ∧
    State.reset.params.virtioBase.toNat + State.reset.params.virtioSize ≤ (0x10002000 : Addr).toNat :=
  ⟨rfl, by decide, by decide⟩

/-- DecodeOfEncodeIsTheOperation, EverySelectorWordHasOneMeaning. -/
theorem witness_encoding :
    (Instr.rdZero 0x028).wellFormed = true ∧ (Instr.rdZero 0x028).isPrimitive = false ∧
    (Instr.rdZero 0x028).fitsSelector = true ∧ encodeSelector (.rdZero 0x028) = some (0x4028, 0) ∧
    (0x4028 : BitVec 16).getLsbD 15 = false := by decide

end Sys2Proof.Tests
end

section
/-! PROOFS. What every step keeps (spec/00_scope.md): the invariant of the machine, the parameters and the map of
the bus. Within a transfer `Inv` does not hold; what holds there is `Sound`, and each phase leads from `Sound` in its
own phase to `Sound` in the next one or to an ended transfer with `Inv` (`Reaches`). -/

namespace Sys2Proof.Machine

open Sys2Proof.Safety

/-! ## The part of the invariant that holds within a transfer -/

/-- Guest memory is in canonical form and x[ID] is below 2^ID_WIDTH (R12). -/
structure Sound (s : State) : Prop where
  mem : s.mem.wf = true
  id : s.id < 2 ^ s.params.idWidth

/-- A transfer stands at phase `p`. -/
structure Underway (p : Phase) (s : State) : Prop extends Sound s where
  pc : s.pc = p

/-- A transfer stands at phase `p`, or it has ended in a state with the invariant (R160 b, c). -/
def Reaches (p : Phase) (s : State) : Prop := Underway p s ∨ Safety.Inv s

end Sys2Proof.Machine

namespace Sys2Proof.Safety

open Sys2Proof.Machine

theorem inv_iff {s : State} : Inv s ↔ Sound s ∧ Settled s ∧ (s.pc = .idle → s.xfer = .blank) :=
  ⟨fun ⟨hmem, hpc, hid, hblank⟩ => ⟨⟨hmem, hid⟩, hpc, hblank⟩,
   fun ⟨hs, hpc, hblank⟩ => ⟨hs.mem, hpc, hs.id, hblank⟩⟩

theorem Inv.sound {s : State} (h : Inv s) : Sound s := (inv_iff.mp h).1

theorem Inv.settled {s : State} (h : Inv s) : Settled s := (inv_iff.mp h).2.1

/-- An access of the bus concerns the canonical form of guest memory only. -/
theorem Inv.accessed {s : State} (h : Inv s) (acc : BusAccess) {m : Memory} (hm : m.wf = true) :
    Inv (accessed acc m s) :=
  ⟨hm, h.2⟩

/-- The invariant says nothing of the last answer. -/
theorem Inv.answer {s : State} (h : Inv s) (ans : Answer) : Inv { s with answer := ans } := h

end Sys2Proof.Safety

namespace Sys2Proof.Machine

open Sys2Proof.Safety

theorem Sound.accessed {s : State} (h : Sound s) (acc : BusAccess) {m : Memory} (hm : m.wf = true) :
    Sound (accessed acc m s) :=
  ⟨hm, h.id⟩

theorem Sound.endTransfer {s : State} (h : Sound s) (ans : Answer) : Safety.Inv (endTransfer ans s) :=
  ⟨h.mem, .inl rfl, h.id, fun _ => rfl⟩

theorem Sound.raiseBusFault {s : State} (h : Sound s) (kind : AccessKind) (a : Addr) :
    Safety.Inv (raiseBusFault kind a s) :=
  h.endTransfer _

theorem Sound.raiseDiskAbort {s : State} (h : Sound s) (off : Nat) : Safety.Inv (raiseDiskAbort off s) :=
  ⟨h.mem, .inr rfl, h.id, nofun⟩

theorem Sound.accessed_busRead {s : State} (h : Sound s) (a : Addr) (n : Size) :
    Sound (Machine.accessed (.load a n) (busRead s a n).2 s) :=
  h.accessed _ (busRead_wf a n h.mem)

/-! ## Accesses that raise -/

/-- Everything `memRead` can do in a sound state: the rest in a sound state, or an end with the invariant. -/
theorem memRead_of_sound {P : State → Prop} {s : State} (h : Sound s) (hinv : ∀ t, Safety.Inv t → P t) {a : Addr}
    {n : Size} {rest : List Byte → State → State}
    (hok : ∀ bytes m, Sound (accessed (.load a n) m s) → P (rest bytes (accessed (.load a n) m s))) :
    P (memRead s a n rest) := by
  have hread := h.accessed_busRead a n
  refine memRead_cases s a n rest (fun bytes m e => hok bytes m ?_) (fun m e => hinv _ (Sound.raiseBusFault ?_ _ _))
  all_goals simpa [e] using hread

/-- Everything `memWrite` can do in a sound state: the rest in a sound state, or an end with the invariant. -/
theorem memWrite_of_sound {P : State → Prop} {s : State} (h : Sound s) (hinv : ∀ t, Safety.Inv t → P t) {a : Addr}
    {bytes : List Byte} {rest : State → State}
    (hok : ∀ m, Sound (accessed (.store a bytes) m s) → P (rest (accessed (.store a bytes) m s))) :
    P (memWrite s a bytes rest) := by
  have hwrite := h.accessed (.store a bytes) (busWrite_wf a bytes h.mem)
  refine memWrite_cases s a bytes rest (fun m e => hok m ?_) (fun m e => hinv _ (Sound.raiseBusFault ?_ _ _))
  all_goals simpa [e] using hwrite

/-- Everything `descRead` can do in a sound state: the rest in a sound state, or an end with the invariant. -/
theorem descRead_of_sound {P : State → Prop} {s : State} (h : Sound s) (hinv : ∀ t, Safety.Inv t → P t) {a : Addr}
    {rest : Desc → State → State} (hok : ∀ d t, Sound t → P (rest d t)) : P (descRead s a rest) :=
  descRead_cases (fun _ a n ht => ht.accessed_busRead a n) (fun _ a ht => hinv _ (ht.raiseBusFault .load a)) rest
    hok a s h

/-! ## The phases before the copy -/

theorem phaseBase_reaches {s : State} (h : Sound s) : Reaches .fill (phaseBase s) :=
  .inl ⟨⟨h.mem, h.id⟩, rfl⟩

theorem phaseFill_reaches {s : State} (h : Sound s) : Reaches .head (phaseFill s) :=
  memRead_of_sound h (fun _ => .inr) fun _ _ ht => .inl ⟨⟨ht.mem, ht.id⟩, rfl⟩

theorem phaseHead_reaches {s : State} (h : Sound s) : Reaches .desc0 (phaseHead s) :=
  memRead_of_sound h (fun _ => .inr) fun _ _ ht => .inl ⟨⟨ht.mem, ht.id⟩, rfl⟩

theorem phaseDesc0_reaches {s : State} (h : Sound s) : Reaches .desc1 (phaseDesc0 s) :=
  descRead_of_sound h (fun _ => .inr) fun _ _ ht => .inl ⟨⟨ht.mem, ht.id⟩, rfl⟩

theorem phaseDesc1_reaches {s : State} (h : Sound s) : Reaches .sector (phaseDesc1 s) :=
  descRead_of_sound h (fun _ => .inr) fun _ _ ht => .inl ⟨⟨ht.mem, ht.id⟩, rfl⟩

theorem phaseSector_reaches {s : State} (h : Sound s) : Reaches .copy (phaseSector s) :=
  memRead_of_sound h (fun _ => .inr) fun _ _ ht => .inl ⟨⟨ht.mem, ht.id⟩, rfl⟩

/-! ## The copy -/

/-- How many bytes the copy has still to move (R167). -/
def bytesLeft (x : Xfer) : Nat := x.d1.length.toNat - x.i.toNat

theorem copyLeft_iff {x : Xfer} : copyLeft x = true ↔ 0 < bytesLeft x := by
  simp [copyLeft, bytesLeft]

/-- The counter is a bit wider than the length, so it does not wrap while bytes are left. -/
theorem bytesLeft_nextByte_lt {s : State} (h : copyLeft s.xfer = true) :
    bytesLeft (nextByte s).xfer < bytesLeft s.xfer := by
  have hlength := s.xfer.d1.length.isLt
  have hone : (1 : BitVec 33).toNat = 1 := rfl
  rw [copyLeft_iff] at h
  simp only [bytesLeft, nextByte, BitVec.toNat_add, hone] at h ⊢
  omega

/-- What one step of the copy from `s` leaves: a copy with fewer bytes left, or the copy is over. -/
def CopyAdvances (s t : State) : Prop :=
  (Underway .copy t ∧ bytesLeft t.xfer < bytesLeft s.xfer) ∨ Reaches .id t

theorem CopyAdvances.of_inv {s t : State} (h : Safety.Inv t) : CopyAdvances s t := .inr (.inr h)

/-- One byte moved, in a state that has the copy's phase and transient values. -/
theorem CopyAdvances.nextByte {s t : State} (hleft : copyLeft s.xfer = true) (ht : Sound t) (hpc : t.pc = .copy)
    (hxfer : t.xfer = s.xfer) : CopyAdvances s (nextByte t) := by
  rw [← hxfer] at hleft
  exact .inl ⟨⟨⟨ht.mem, ht.id⟩, hpc⟩, hxfer ▸ bytesLeft_nextByte_lt hleft⟩

/-- With no byte left the phase ends. -/
theorem CopyAdvances.done {s : State} (h : Sound s) : CopyAdvances s { s with pc := .id } :=
  .inr (.inl ⟨⟨h.mem, h.id⟩, rfl⟩)

theorem copyG2d_advances {s : State} (h : Underway .copy s) : CopyAdvances s (copyG2d s) := by
  unfold copyG2d
  split
  next hleft =>
    refine memRead_of_sound h.toSound (fun _ => .of_inv) fun _ m ht => ?_
    exact diskWrite_cases (P := CopyAdvances s) _ _ _ _ (fun _ => .nextByte hleft ⟨ht.mem, ht.id⟩ h.pc rfl)
      (fun _ => .of_inv (ht.raiseDiskAbort _))
  next => exact .done h.toSound

theorem copyD2g_advances {s : State} (h : Underway .copy s) : CopyAdvances s (copyD2g s) := by
  unfold copyD2g
  split
  next hleft =>
    refine diskRead_cases (P := CopyAdvances s) _ _ _ (fun _ _ => ?_) (fun _ => .of_inv (h.toSound.raiseDiskAbort _))
    exact memWrite_of_sound h.toSound (fun _ => .of_inv) fun _ ht => .nextByte hleft ht h.pc rfl
  next => exact .done h.toSound

theorem copyStep_advances {s : State} (h : Underway .copy s) : CopyAdvances s (copyStep s) := by
  unfold copyStep
  split
  · exact copyD2g_advances h
  · exact copyG2d_advances h

theorem copyLoop_of_pc_ne {s : State} (h : s.pc ≠ .copy) (n : Nat) : copyLoop n s = s := by
  cases n <;> simp [copyLoop, h]

theorem Reaches.pc_ne_copy {s : State} (h : Reaches .id s) : s.pc ≠ .copy := by
  rcases h with h | h
  · simp [h.pc]
  · rcases h.settled with hpc | hpc <;> simp [hpc]

/-- With one step more than bytes are left the copy comes to its end. -/
theorem copyLoop_reaches {n : Nat} {s : State} (h : Underway .copy s) (hn : bytesLeft s.xfer < n) :
    Reaches .id (copyLoop n s) := by
  induction n generalizing s with
  | zero => omega
  | succ n ih =>
    rw [copyLoop, if_pos h.pc]
    rcases copyStep_advances h with ⟨hcopy, hlt⟩ | hend
    · exact ih hcopy (by omega)
    · rwa [copyLoop_of_pc_ne hend.pc_ne_copy]

theorem phaseCopy_reaches {s : State} (h : Underway .copy s) : Reaches .id (phaseCopy s) :=
  copyLoop_reaches h (Nat.lt_succ_of_le (Nat.sub_le _ _))

/-! ## The end of a transfer, and the whole transfer -/

theorem phaseId_reaches {s : State} (h : Sound s) : Reaches .used (phaseId s) :=
  .inl ⟨⟨h.mem, Nat.mod_lt _ (Nat.two_pow_pos _)⟩, rfl⟩

theorem phaseUsed_inv {s : State} (h : Sound s) : Safety.Inv (phaseUsed s) :=
  memWrite_of_sound h (fun _ => id) fun _ ht => ht.endTransfer _

/-- A phase is run from a state that stands at it; a transfer that has ended stays as it is. -/
theorem thenPhase_of_reaches {P : State → Prop} {p : Phase} {f : State → State}
    (hf : ∀ s, Underway p s → P (f s)) (hinv : ∀ s, Safety.Inv s → P s) {s : State} (h : Reaches p s) :
    P (thenPhase p f s) := by
  unfold thenPhase
  split
  next hpc => exact hf s ⟨h.elim Underway.toSound Safety.Inv.sound, hpc⟩
  next hpc => exact hinv s (h.resolve_left fun hp => hpc hp.pc)

/-- A phase of the middle of a transfer. -/
theorem Reaches.thenPhase {p q : Phase} {f : State → State} (hf : ∀ s, Underway p s → Reaches q (f s)) {s : State}
    (h : Reaches p s) : Reaches q (thenPhase p f s) :=
  thenPhase_of_reaches hf (fun _ => .inr) h

/-- A transfer ends in a state with the invariant (R160, R172). -/
theorem transfer_inv {s : State} (h : Underway .base s) : Safety.Inv (transfer s) := by
  have hcopy : Reaches .copy _ :=
    Reaches.thenPhase (fun _ hs => phaseSector_reaches hs.toSound) <|
    Reaches.thenPhase (fun _ hs => phaseDesc1_reaches hs.toSound) <|
    Reaches.thenPhase (fun _ hs => phaseDesc0_reaches hs.toSound) <|
    Reaches.thenPhase (fun _ hs => phaseHead_reaches hs.toSound) <|
    Reaches.thenPhase (fun _ hs => phaseFill_reaches hs.toSound) <|
    Reaches.thenPhase (fun _ hs => phaseBase_reaches hs.toSound) (.inl h)
  have hused : Reaches .used _ :=
    Reaches.thenPhase (fun _ hs => phaseId_reaches hs.toSound) <|
    Reaches.thenPhase (fun _ hs => phaseCopy_reaches hs) hcopy
  exact thenPhase_of_reaches (fun _ hs => phaseUsed_inv hs.toSound) (fun _ => id) hused

/-! ## Operations and steps keep the invariant -/

theorem Served.inv {s t : State} (h : Served s t) (hs : Safety.Inv s) : Safety.Inv t := by
  cases h <;> exact hs

theorem resetDevice_inv {s : State} (h : s.mem.wf = true) : Safety.Inv (resetDevice s) :=
  ⟨h, .inl rfl, Nat.mod_lt _ (Nat.two_pow_pos _), fun _ => rfl⟩

/-- Nothing runs in DEAD (R211). -/
theorem Ran.pc_ne_dead {s t : State} {i : Instr} (h : Ran s i t) : s.pc ≠ .dead := by
  cases h with
  | descRead _ hpc => exact hpc
  | diskRdb _ hpc => exact hpc
  | diskWrb _ _ hpc => exact hpc
  | _ => simp [*]

/-- An operation that runs in IDLE, a request or a primitive, keeps the invariant; the phases do not run there. -/
theorem Ran.inv {s t : State} {i : Instr} (h : Ran s i t) (hs : Safety.Inv s) (hidle : s.pc = .idle) :
    Safety.Inv t := by
  have hsound := hs.sound
  cases h with
  | served _ h => exact h.inv hs
  | irqQuery => exact hs
  | reset => exact resetDevice_inv hsound.mem
  | diskInit => exact hs
  | wrNotify => exact transfer_inv ⟨⟨hsound.mem, hsound.id⟩, rfl⟩
  | descRead a =>
    exact descRead_cases (Q := Safety.Inv) (fun _ a n ht => ht.accessed _ (busRead_wf a n ht.sound.mem))
      (fun _ a ht => ht.sound.raiseBusFault .load a) _ (fun d _ ht => ht.answer (.descriptor d)) a s hs
  | diskRdb off =>
    exact diskRead_cases s off _ (fun b _ => hs.answer (.diskByte b)) (fun _ => hsound.raiseDiskAbort off)
  | diskWrb off b => exact diskWrite_cases s off b _ (fun _ => hs) (fun _ => hsound.raiseDiskAbort off)
  | _ => simp_all

theorem Stepped.inv {s t : State} (h : Stepped s t) (hs : Safety.Inv s) : Safety.Inv t := by
  cases h with
  | quiet => exact hs
  | ignored => exact hs
  | guestStore rest a bytes =>
    have htaken : Safety.Inv (takeEvent rest s) := hs
    exact htaken.accessed (.driver a bytes) (writeBytes_wf a bytes hs.sound.mem)
  | slave rest hpc h => exact h.inv hs hpc
  | port rest hpc h => exact h.inv hs hpc
  | phase hpc h => exact absurd (hs.settled.resolve_left hpc) h.pc_ne_dead

/-- Settles O3: in IDLE by cases on what a step can do, a whole transfer by its phases; in DEAD no step answers a
next state. -/
theorem everyStepKeepsInvariant : Obligations.EveryStepKeepsInvariant :=
  fun _ _ hs h => (step_stepped h).inv hs

/-! ## The parameters and the map of the bus -/

/-- The parameters and the map of the bus are the same (R3, R44). -/
structure SameSetup (s t : State) : Prop where
  params : t.params = s.params
  regions : t.regions = s.regions

theorem SameOutside.setup {s t : State} (h : SameOutside s t) : SameSetup s t := ⟨h.params, h.regions⟩

/-- DESC.READ, DISK.RDB and DISK.WRB touch what a phase may touch only. -/
theorem descRead_outside (s : State) (a : Addr) :
    SameOutside s (descRead s a fun d s' => { s' with answer := .descriptor d }) :=
  descRead_cases (P := SameOutside s) (Q := SameOutside s)
    (fun _ _ _ h => h.of_update _ _ _ _ _ _ _ rfl) (fun _ _ h => h.of_update _ _ _ _ _ _ _ rfl) _
    (fun _ _ h => h.of_update _ _ _ _ _ _ _ rfl) _ s (SameOutside.refl s)

theorem diskRdb_outside (s : State) (off : Nat) :
    SameOutside s (diskRead s off fun b s' => { s' with answer := .diskByte b }) :=
  diskRead_cases (P := SameOutside s) s off _
    (fun _ _ => (SameOutside.refl s).of_update _ _ _ _ _ _ _ rfl)
    (fun _ => (SameOutside.refl s).of_update _ _ _ _ _ _ _ rfl)

theorem diskWrb_outside (s : State) (off : Nat) (b : Byte) : SameOutside s (diskWrite s off b respondDone) :=
  diskWrite_cases (P := SameOutside s) s off b _
    (fun _ => (SameOutside.refl s).of_update _ _ _ _ _ _ _ List.length_set)
    (fun _ => (SameOutside.refl s).of_update _ _ _ _ _ _ _ rfl)

theorem Served.setup {s t : State} (h : Served s t) : SameSetup s t := by
  cases h <;> exact ⟨rfl, rfl⟩

theorem Ran.setup {s t : State} {i : Instr} (h : Ran s i t) : SameSetup s t := by
  cases h with
  | served _ h => exact h.setup
  | irqQuery => exact ⟨rfl, rfl⟩
  | reset => exact ⟨rfl, rfl⟩
  | diskInit => exact ⟨rfl, rfl⟩
  | wrNotify v =>
    have htransfer := (transfer_outside (startTransfer (writeValue v) s)).setup
    exact ⟨htransfer.params, htransfer.regions⟩
  | base => exact (phaseBase_outside s).setup
  | fill => exact (phaseFill_outside s).setup
  | head => exact (phaseHead_outside s).setup
  | desc0 => exact (phaseDesc0_outside s).setup
  | desc1 => exact (phaseDesc1_outside s).setup
  | sector => exact (phaseSector_outside s).setup
  | copyG2d => exact (copyG2d_outside s).setup
  | copyD2g => exact (copyD2g_outside s).setup
  | id => exact (phaseId_outside s).setup
  | used => exact (phaseUsed_outside s).setup
  | descRead a => exact (descRead_outside s a).setup
  | diskRdb off => exact (diskRdb_outside s off).setup
  | diskWrb off b => exact (diskWrb_outside s off b).setup

theorem Stepped.setup {s t : State} (h : Stepped s t) : SameSetup s t := by
  cases h with
  | quiet => exact ⟨rfl, rfl⟩
  | ignored => exact ⟨rfl, rfl⟩
  | guestStore => exact ⟨rfl, rfl⟩
  | slave _ _ h => exact ⟨h.setup.params, h.setup.regions⟩
  | port _ _ h => exact ⟨h.setup.params, h.setup.regions⟩
  | phase _ h => exact h.setup

/-- Settles O4, by cases on what a step can do. -/
theorem everyStepKeepsParametersAndBusMap : Obligations.EveryStepKeepsParametersAndBusMap :=
  fun _ _ h => ⟨(step_stepped h).setup.params, (step_stepped h).setup.regions⟩

end Sys2Proof.Machine
end

section
/-! PROOFS. The registers and the pending bit: reset and creation (spec/10_state.md R35, R250), what reads and writes
of port S do to a stored register (R26), and which operations move the `irq` level (R22, R220). -/

namespace Sys2Proof.Machine

open Sys2Proof.Safety

/-! ## When an operation runs -/

theorem beforeRun_fresh {s t : State} (hpc : s.pc = .idle) (hrun : s.running = false) : beforeRun s t = .next t := by
  simp [beforeRun, hpc, hrun]

theorem beforeRun_running {s t : State} (hpc : s.pc = .idle) (hrun : s.running = true) :
    beforeRun s t = .refused .runStarted := by
  simp [beforeRun, hpc, hrun]

theorem inPhase_self {p : Phase} {s t : State} (h : s.pc = p) (hp : p ≠ .dead) : inPhase p s t = .next t := by
  simp [inPhase, h, hp]

/-! ## Reset and creation -/

/-- Settles O1: each field of the reset state is written out in the model. -/
theorem resetLeavesRegistersZeroAndIdle : Obligations.ResetLeavesRegistersZeroAndIdle :=
  ⟨rfl, rfl, rfl, rfl, rfl, rfl, rfl, rfl, rfl, rfl, rfl⟩

/-- Settles O2: guest memory is empty, `pc` is IDLE with blank transient values, and 0 is an id of every width. -/
theorem resetSatisfiesInvariant : Obligations.ResetSatisfiesInvariant :=
  inv_iff.mpr ⟨⟨rfl, Nat.two_pow_pos _⟩, .inl rfl, fun _ => rfl⟩

/-- Settles O20: in IDLE the flag `running` decides between creation, which is `resetDevice`, and the refusal. -/
theorem creationPutsEveryRegisterAtItsResetValue : Obligations.CreationPutsEveryRegisterAtItsResetValue := by
  intro s hpc
  constructor
  · exact fun hrun => (beforeRun_fresh hpc hrun).trans (by rw [resetDevice])
  · exact beforeRun_running hpc

/-! ## Reads and writes of port S -/

theorem decodeRead_of_notMem {off : Word64} (h : off ∉ readSet) : decodeRead off = .rdZero off := by
  simp only [readSet, List.mem_cons, List.not_mem_nil, or_false, not_or] at h
  simp only [decodeRead, h, if_false]

theorem registerRead_of_notMem (s : State) {off : Word64} (h : off ∉ readSet) : registerRead s off = 0 := by
  simp only [readSet, List.mem_cons, List.not_mem_nil, or_false, not_or] at h
  simp only [registerRead, h, if_false]

/-- In IDLE a 4-byte read answers what the register map has at its offset (R25): each exact row its register, every
other offset 0. -/
theorem exec_decodeRead (off : Word64) {s : State} (h : s.pc = .idle) :
    exec (decodeRead off) s = .next (respond (registerRead s off) s) := by
  rw [← atPort_idle h]
  by_cases hrow : off ∈ readSet
  · simp only [readSet, List.mem_cons, List.not_mem_nil, or_false] at hrow
    rcases hrow with rfl | rfl | rfl | rfl | rfl | rfl | rfl | rfl | rfl <;> rfl
  · rw [decodeRead_of_notMem hrow, registerRead_of_notMem s hrow]
    rfl

/-- The register map does not hold the last answer. -/
theorem registerRead_answer (s : State) (off : Word64) (ans : Answer) :
    registerRead { s with answer := ans } off = registerRead s off := rfl

/-- Settles O9: the value read is that of the register map, which the answer of the first read leaves as it is. -/
theorem readsAreIdempotent : Obligations.ReadsAreIdempotent := by
  intro off s hpc
  refine ⟨registerRead s off, exec_decodeRead off hpc, ?_⟩
  rw [exec_decodeRead off (by exact hpc), registerRead_answer]
  rfl

theorem exec_rdQpfn_idle {s : State} (h : s.pc = .idle) : exec .rdQpfn s = .next (respond s.qpfn s) := atPort_idle h

theorem exec_rdStatus_idle {s : State} (h : s.pc = .idle) : exec .rdStatus s = .next (respond s.status s) :=
  atPort_idle h

theorem exec_rdDrvfeat_idle {s : State} (h : s.pc = .idle) : exec .rdDrvfeat s = .next (respond s.drvfeat s) :=
  atPort_idle h

/-- Settles O14: each write leaves `pc` IDLE and its low word in the register that the matching read answers. -/
theorem writtenRegistersReadBack : Obligations.WrittenRegistersReadBack := by
  intro v s t hpc
  refine ⟨fun h => ?_, fun h => ?_, fun hat h => ?_, fun hat h => ?_⟩
  · obtain ⟨_, rfl⟩ := atPort_next h
    exact exec_rdQpfn_idle hpc
  · obtain ⟨_, rfl⟩ := atPort_next h
    exact exec_rdStatus_idle hpc
  · obtain ⟨_, rfl⟩ := atPort_next h
    rw [if_pos hat]
    exact exec_rdDrvfeat_idle hpc
  · obtain ⟨_, rfl⟩ := atPort_next h
    rw [if_pos hat]
    exact exec_rdDrvfeat_idle hpc

/-! ## The pending bit -/

theorem Served.notifyValid {s t : State} (h : Served s t) : t.notifyValid = s.notifyValid := by
  cases h <;> rfl

/-- Only a notify, the query and creation move the pending bit; every other operation keeps it. -/
theorem Ran.notifyValid {s t : State} {i : Instr} (h : Ran s i t) :
    t.notifyValid = s.notifyValid ∨
      (∃ v, i = .wrNotify v ∧ t.notifyValid = (s.notifyValid || marksPending s.params (writeValue v))) ∨
      ((i = .irqQuery ∨ i = .reset) ∧ t.notifyValid = false) := by
  cases h with
  | wrNotify v => exact .inr (.inl ⟨v, rfl, (transfer_outside (startTransfer (writeValue v) s)).notifyValid⟩)
  | irqQuery => exact .inr (.inr ⟨.inl rfl, rfl⟩)
  | reset => exact .inr (.inr ⟨.inr rfl, rfl⟩)
  | served _ h => exact .inl h.notifyValid
  | diskInit => exact .inl rfl
  | base => exact .inl (phaseBase_outside s).notifyValid
  | fill => exact .inl (phaseFill_outside s).notifyValid
  | head => exact .inl (phaseHead_outside s).notifyValid
  | desc0 => exact .inl (phaseDesc0_outside s).notifyValid
  | desc1 => exact .inl (phaseDesc1_outside s).notifyValid
  | sector => exact .inl (phaseSector_outside s).notifyValid
  | copyG2d => exact .inl (copyG2d_outside s).notifyValid
  | copyD2g => exact .inl (copyD2g_outside s).notifyValid
  | id => exact .inl (phaseId_outside s).notifyValid
  | used => exact .inl (phaseUsed_outside s).notifyValid
  | descRead a => exact .inl (descRead_outside s a).notifyValid
  | diskRdb off => exact .inl (diskRdb_outside s off).notifyValid
  | diskWrb off b => exact .inl (diskWrb_outside s off b).notifyValid

/-- Settles O18: a notify only sets the pending bit, the query and creation only clear it. -/
theorem onlyNotifyQueryAndResetMovePending : Obligations.OnlyNotifyQueryAndResetMovePending := by
  intro i s t h hmoved
  rcases (exec_ran h).notifyValid with hsame | ⟨v, rfl, hset⟩ | ⟨hi, hclear⟩
  · exact absurd hsame hmoved
  · refine .inl ⟨⟨v, rfl⟩, ?_⟩
    unfold irqLevel at hmoved ⊢
    cases hs : s.notifyValid <;> simp_all
  · exact .inr ⟨hi, hclear⟩

/-! ## The words of the tables -/

/-- Settles O56: every word of the tables is written out, so each clause is the decoder's value at a closed word; the
write data and the image are carried along. -/
theorem tableWordsDecodeRight : Obligations.TableWordsDecodeRight := by
  intro v image
  and_intros <;> rfl

end Sys2Proof.Machine
end

section
/-! PROOFS. The region addresses (spec/10_state.md R17, R52, R161) and the request id in the used ring (R190 to R192).
`Carries` is what a transfer keeps from T_FILL to its end: the used-ring address, and the id of its start until T_ID
has taken the next one. -/

namespace Sys2Proof.Machine

open Sys2Proof.Safety

/-! ## The region addresses -/

/-- The product of two 32-bit values and what is added to it stay below 2^64 (R17, R52). -/
theorem descTableAddress_toNat_le (s : State) : s.qpfn.toNat * s.pgsz.toNat ≤ (2 ^ 32 - 1) * (2 ^ 32 - 1) :=
  Nat.mul_le_mul (Nat.le_sub_one_of_lt s.qpfn.isLt) (Nat.le_sub_one_of_lt s.pgsz.isLt)

theorem descTableAddress_toNat (s : State) : (descTableAddress s).toNat = s.qpfn.toNat * s.pgsz.toNat := by
  have hq : (s.qpfn.setWidth 64).toNat = s.qpfn.toNat := BitVec.toNat_setWidth_of_le (by decide)
  have hp : (s.pgsz.setWidth 64).toNat = s.pgsz.toNat := BitVec.toNat_setWidth_of_le (by decide)
  have hle := descTableAddress_toNat_le s
  rw [descTableAddress, BitVec.toNat_mul, hq, hp, Nat.mod_eq_of_lt (by omega)]

theorem availAddr_toNat (s : State) :
    (availAddr (descTableAddress s)).toNat = (descTableAddress s).toNat + 0x40 := by
  have hle := descTableAddress_toNat_le s
  have hbase := descTableAddress_toNat s
  rw [availAddr, BitVec.toNat_add_of_lt (by simp [Config.availOffset]; omega)]
  rfl

theorem usedAddr_toNat (s : State) :
    (usedAddr (descTableAddress s)).toNat = (descTableAddress s).toNat + 4096 := by
  have hle := descTableAddress_toNat_le s
  have hbase := descTableAddress_toNat s
  rw [usedAddr, BitVec.toNat_add_of_lt (by simp [Config.usedOffset]; omega)]
  rfl

/-- Settles O21: T_BASE stores the model's three addresses, and their sums stay below 2^64. -/
theorem basePhaseComputesTheRegionAddresses : Obligations.BasePhaseComputesTheRegionAddresses :=
  fun s hpc => ⟨descTableAddress s, availAddr (descTableAddress s), usedAddr (descTableAddress s),
    descTableAddress_toNat s, availAddr_toNat s, usedAddr_toNat s, inPhase_self hpc (by decide)⟩

/-! ## Request ids modulo 8 -/

/-- The wrap of a counter of at least 3 bits does not show modulo 8. -/
theorem mod_two_pow_mod_eight {w : Nat} (hw : 3 ≤ w) (n : Nat) : n % 2 ^ w % 8 = n % 8 :=
  Nat.mod_mod_of_dvd n (Nat.pow_dvd_pow 2 hw)

theorem nextId_mod_eight {p : Params} (hw : 3 ≤ p.idWidth) {id n : Nat} (h : id % 8 = n % 8) :
    nextId p id % 8 = (n + 1) % 8 := by
  rw [nextId, mod_two_pow_mod_eight hw, Nat.add_mod, h, ← Nat.add_mod]

/-- The used-ring field holds the id modulo 8 in its low byte and 0 in its high one. -/
theorem usedFieldBytes_eq (id : Nat) : usedFieldBytes id = [BitVec.ofNat 8 (id % 8), 0] := by
  have hhigh : id % 8 / 256 = 0 := by omega
  simp [usedFieldBytes, leBytes, Config.queueSize, hhigh]

/-- Whether the bus takes the field or refuses it, its write is what T_USED adds to the record. -/
theorem phaseUsed_busLog (s : State) :
    (phaseUsed s).busLog = .store (usedFieldAddr s.xfer.used) (usedFieldBytes s.id) :: s.busLog :=
  memWrite_cases (P := fun t => t.busLog = _) s _ _ _ (fun _ _ => rfl) (fun _ _ => rfl)

theorem phaseUsed_id (s : State) : (phaseUsed s).id = s.id :=
  memWrite_cases (P := fun t => t.id = s.id) s _ _ _ (fun _ _ => rfl) (fun _ _ => rfl)

/-! ## What a transfer carries to its end -/

/-- The id a transfer from `s` holds at a phase: from T_USED on it is the next one (R190). -/
def idAt (s : State) : Phase → Nat
  | .used => nextId s.params s.id
  | _ => s.id

theorem idAt_of_ne (s : State) {p : Phase} (hp : p ≠ .used) : idAt s p = s.id := by
  cases p <;> simp_all [idAt]

/-- A transfer from `s` that has not completed: it has ended, or it holds the used-ring address of `s` and the id
that `s` gives at its phase. -/
structure Carries (s t : State) : Prop where
  params : t.params = s.params
  answer : t.answer ≠ .done
  moving : Settled t ∨ (t.xfer.used = usedAddr (descTableAddress s) ∧ t.id = idAt s t.pc)

/-- At a phase the transfer has not ended. -/
theorem Carries.underway {s t : State} (h : Carries s t) (hidle : t.pc ≠ .idle) (hdead : t.pc ≠ .dead) :
    t.xfer.used = usedAddr (descTableAddress s) ∧ t.id = idAt s t.pc :=
  h.moving.resolve_left fun hset => hset.elim hidle hdead

theorem Carries.raiseBusFault {s t : State} (h : Carries s t) (kind : AccessKind) (a : Addr) :
    Carries s (raiseBusFault kind a t) :=
  ⟨h.params, nofun, .inl (.inl rfl)⟩

theorem Carries.raiseDiskAbort {s t : State} (h : Carries s t) (off : Nat) : Carries s (raiseDiskAbort off t) :=
  ⟨h.params, nofun, .inl (.inr rfl)⟩

theorem Carries.accessed {s t : State} (h : Carries s t) (acc : BusAccess) (m : Memory) :
    Carries s (accessed acc m t) :=
  ⟨h.params, h.answer, h.moving⟩

/-- A phase before T_ID goes on to a phase before T_USED, with the used-ring address and the id kept. -/
theorem Carries.goes_on {s t : State} (h : Carries s t) {p q : Phase} (hpc : t.pc = p)
    (hp : p ∉ [.idle, .used, .dead]) (hq : q ≠ .used) {x : Xfer} (hx : x.used = t.xfer.used) :
    Carries s { t with pc := q, xfer := x } := by
  subst hpc
  simp only [List.mem_cons, not_or] at hp
  obtain ⟨hidle, hused, hdead, -⟩ := hp
  obtain ⟨haddr, hid⟩ := h.underway hidle hdead
  refine ⟨h.params, h.answer, .inr ⟨hx.trans haddr, ?_⟩⟩
  rw [idAt_of_ne s hq, ← idAt_of_ne s hused]
  exact hid

/-- A read of the bus that is refused ends the transfer. -/
theorem memRead_carries {s t : State} (h : Carries s t) {a : Addr} {n : Size} {rest : List Byte → State → State}
    (hrest : ∀ bytes u, Carries s u → u.pc = t.pc → Carries s (rest bytes u)) : Carries s (memRead t a n rest) :=
  memRead_cases t a n rest (fun bytes _ _ => hrest bytes _ (h.accessed _ _) rfl)
    (fun _ _ => (h.accessed _ _).raiseBusFault _ _)

theorem descRead_carries {s t : State} (h : Carries s t) {a : Addr} {rest : Desc → State → State}
    (hrest : ∀ d u, Carries s u → u.pc = t.pc → Carries s (rest d u)) : Carries s (descRead t a rest) :=
  descRead_cases (Q := fun u => Carries s u ∧ u.pc = t.pc) (fun _ _ _ hu => ⟨hu.1.accessed _ _, hu.2⟩)
    (fun _ _ hu => hu.1.raiseBusFault _ _) rest (fun d u hu => hrest d u hu.1 hu.2) a t ⟨h, rfl⟩

theorem phaseBase_carries (v : Word32) (s : State) : Carries s (phaseBase (startTransfer v s)) :=
  ⟨rfl, nofun, .inr ⟨rfl, rfl⟩⟩

theorem phaseFill_carries {s t : State} (h : Carries s t) (hpc : t.pc = .fill) : Carries s (phaseFill t) :=
  memRead_carries h fun _ _ hu hpu => hu.goes_on (hpu.trans hpc) (by decide) (by decide) rfl

theorem phaseHead_carries {s t : State} (h : Carries s t) (hpc : t.pc = .head) : Carries s (phaseHead t) :=
  memRead_carries h fun _ _ hu hpu => hu.goes_on (hpu.trans hpc) (by decide) (by decide) rfl

theorem phaseDesc0_carries {s t : State} (h : Carries s t) (hpc : t.pc = .desc0) : Carries s (phaseDesc0 t) :=
  descRead_carries h fun _ _ hu hpu => hu.goes_on (hpu.trans hpc) (by decide) (by decide) rfl

theorem phaseDesc1_carries {s t : State} (h : Carries s t) (hpc : t.pc = .desc1) : Carries s (phaseDesc1 t) :=
  descRead_carries h fun _ _ hu hpu => hu.goes_on (hpu.trans hpc) (by decide) (by decide) rfl

theorem phaseSector_carries {s t : State} (h : Carries s t) (hpc : t.pc = .sector) : Carries s (phaseSector t) :=
  memRead_carries h fun _ _ hu hpu => hu.goes_on (hpu.trans hpc) (by decide) (by decide) rfl

theorem copyG2d_carries {s t : State} (h : Carries s t) (hpc : t.pc = .copy) : Carries s (copyG2d t) := by
  unfold copyG2d
  split
  · refine memRead_carries h fun _ u hu _ => ?_
    exact diskWrite_cases u _ _ _ (fun _ => ⟨hu.params, hu.answer, hu.moving⟩) (fun _ => hu.raiseDiskAbort _)
  · exact h.goes_on hpc (by decide) (by decide) rfl

theorem copyD2g_carries {s t : State} (h : Carries s t) (hpc : t.pc = .copy) : Carries s (copyD2g t) := by
  unfold copyD2g
  split
  · refine diskRead_cases t _ _ (fun _ _ => ?_) (fun _ => h.raiseDiskAbort _)
    exact memWrite_cases t _ _ _ (fun _ _ => ⟨h.params, h.answer, h.moving⟩)
      (fun _ _ => (h.accessed _ _).raiseBusFault _ _)
  · exact h.goes_on hpc (by decide) (by decide) rfl

theorem copyLoop_carries {s : State} (n : Nat) {t : State} (h : Carries s t) : Carries s (copyLoop n t) := by
  induction n generalizing t with
  | zero => exact h
  | succ n ih =>
    unfold copyLoop copyStep
    split
    next hpc =>
      split
      · exact ih (copyD2g_carries h hpc)
      · exact ih (copyG2d_carries h hpc)
    next => exact h

theorem phaseId_carries {s t : State} (h : Carries s t) (hpc : t.pc = .id) : Carries s (phaseId t) := by
  obtain ⟨hused, hid⟩ := h.underway (by simp [hpc]) (by simp [hpc])
  rw [hpc] at hid
  exact ⟨h.params, h.answer, .inr ⟨hused, congrArg₂ nextId h.params hid⟩⟩

theorem thenPhase_carries {s t : State} {p : Phase} {f : State → State}
    (hf : ∀ {t}, Carries s t → t.pc = p → Carries s (f t)) (h : Carries s t) : Carries s (thenPhase p f t) := by
  unfold thenPhase
  split
  next hpc => exact hf h hpc
  next => exact h

/-- T_USED is the only phase that completes a transfer; by then the next id is taken, and its field is the last
access. -/
theorem thenPhase_used_done {s t : State} (h : Carries s t)
    (hdone : (thenPhase .used phaseUsed t).answer = .done) :
    (thenPhase .used phaseUsed t).id = nextId s.params s.id ∧
      (thenPhase .used phaseUsed t).busLog =
        .store (usedField s) (usedFieldBytes (nextId s.params s.id)) :: t.busLog := by
  unfold thenPhase at hdone ⊢
  split at hdone
  next hpc =>
    obtain ⟨hused, hid⟩ := h.underway (by simp [hpc]) (by simp [hpc])
    rw [hpc] at hid
    rw [if_pos hpc, phaseUsed_id, phaseUsed_busLog, hused, hid]
    exact ⟨rfl, rfl⟩
  next => exact absurd hdone h.answer

/-- A completed transfer has taken the next id and written its field as its last access (R190, R191). -/
theorem transfer_done {v : Word32} {s : State} (hdone : (transfer (startTransfer v s)).answer = .done) :
    (transfer (startTransfer v s)).id = nextId s.params s.id ∧
      ∃ log, (transfer (startTransfer v s)).busLog =
        .store (usedField s) (usedFieldBytes (nextId s.params s.id)) :: log := by
  have hbase : Carries s (thenPhase .base phaseBase (startTransfer v s)) := phaseBase_carries v s
  have hcopy : Carries s (thenPhase .sector phaseSector _) :=
    thenPhase_carries phaseSector_carries <| thenPhase_carries phaseDesc1_carries <|
    thenPhase_carries phaseDesc0_carries <| thenPhase_carries phaseHead_carries <|
    thenPhase_carries phaseFill_carries hbase
  have hused : Carries s (thenPhase .id phaseId (thenPhase .copy phaseCopy _)) :=
    thenPhase_carries phaseId_carries <| thenPhase_carries (fun h _ => copyLoop_carries _ h) hcopy
  unfold transfer at hdone ⊢
  obtain ⟨hid, hlog⟩ := thenPhase_used_done hused hdone
  exact ⟨hid, _, hlog⟩

/-- Settles O30: the counter's width of at least 3 bits keeps the count modulo 8, and a completed notify has passed
T_ID and T_USED with the id and the used-ring address it started with. -/
theorem usedFieldValuesCycleModuloEight : Obligations.UsedFieldValuesCycleModuloEight := by
  intro s t hw
  refine ⟨fun h => ?_, fun k hk => ⟨fun h => ?_, fun h => ?_, fun v h hdone => ?_⟩⟩
  · obtain ⟨-, -, rfl⟩ := beforeRun_next h
    exact mod_two_pow_mod_eight hw _
  · obtain ⟨-, -, rfl⟩ := inPhase_next h
    exact nextId_mod_eight hw hk
  · obtain ⟨-, -, rfl⟩ := inPhase_next h
    rw [phaseUsed_busLog, usedFieldBytes_eq, hk]
    rfl
  · obtain ⟨-, -, ht⟩ := execWrNotify_next h
    rw [ht] at hdone ⊢
    obtain ⟨hid, log, hlog⟩ := transfer_done hdone
    rw [hid, hlog, usedFieldBytes_eq, nextId_mod_eight hw hk]
    exact ⟨rfl, log, rfl⟩

end Sys2Proof.Machine
end

section
/-! PROOFS. What a transfer does not read (spec/10_state.md R14, R21; spec/41_mmio_write.md R126 d): queue selection,
queue size, x[NOTIFY] and the transient values left by an earlier transfer. Up to T_COPY two runs agree in the
transient values that the phases so far have set (`known`, `Follows`); from there on in all of them, and the phases
commute with the change of the other fields (`Unread.put`). -/

namespace Sys2Proof.Machine

open Sys2Proof.Safety

/-- Values of the registers that no phase reads. -/
structure Unread where
  qsel : Word32
  qnum : Word32
  notifyValid : Bool
  notifyValue : Word32

/-- The state with other values in the registers that no phase reads. -/
def Unread.put (c : Unread) (s : State) : State :=
  { s with qsel := c.qsel, qnum := c.qnum, notifyValid := c.notifyValid, notifyValue := c.notifyValue }

/-- The transient values that are set on entry to a phase, every other one blank; at T_COPY all are set (R161 to
R166). -/
def known : Phase → Xfer → Xfer
  | .base, _ => .blank
  | .fill, x => { x with fill := 0, slot := 0, head := 0, d0 := {}, d1 := {}, sector := 0, i := 0 }
  | .head, x => { x with head := 0, d0 := {}, d1 := {}, sector := 0, i := 0 }
  | .desc0, x => { x with d0 := {}, d1 := {}, sector := 0, i := 0 }
  | .desc1, x => { x with d1 := {}, sector := 0, i := 0 }
  | .sector, x => { x with sector := 0, i := 0 }
  | _, x => x

/-- The second run at `t` where the first is at `s`: only the unread registers differ, or, at phase `p`, also
transient values that are not set yet. -/
inductive Follows (c : Unread) (p : Phase) (s : State) : State → Prop
  | same : Follows c p s (c.put s)
  | underway (x : Xfer) (hpc : s.pc = p) (hx : known p x = known p s.xfer) : Follows c p s { c.put s with xfer := x }

/-! ## The phases up to the copy -/

variable {c : Unread} {p q : Phase}

/-- The bus gives both runs the same answer; a fault blanks the transient values. -/
theorem memRead_follows {s : State} {x : Xfer} (hx : known p x = known p s.xfer) {a a' : Addr} (ha : a' = a)
    (n : Size) {rest : List Byte → State → State}
    (hrest : ∀ bytes u, known p x = known p u.xfer →
      Follows c q (rest bytes u) (rest bytes { c.put u with xfer := x })) :
    Follows c q (memRead s a n rest) (memRead { c.put s with xfer := x } a' n rest) := by
  subst ha
  have hbus : busRead { c.put s with xfer := x } a' n = busRead s a' n := rfl
  unfold memRead
  rw [hbus]
  split
  · exact hrest _ _ hx
  · exact .same

theorem readPlan_follows (plan : List Size) {s : State} {x : Xfer} (hx : known p x = known p s.xfer) (a : Addr)
    (raw : List Byte) {rest : List Byte → State → State}
    (hrest : ∀ raw u, known p x = known p u.xfer →
      Follows c q (rest raw u) (rest raw { c.put u with xfer := x })) :
    Follows c q (readPlan plan a raw s rest) (readPlan plan a raw { c.put s with xfer := x } rest) := by
  induction plan generalizing s a raw with
  | nil => exact hrest raw s hx
  | cons n plan ih => exact memRead_follows hx rfl n fun _ _ hu => ih hu _ _

theorem descRead_follows {s : State} {x : Xfer} (hx : known p x = known p s.xfer) {a a' : Addr} (ha : a' = a)
    {rest : Desc → State → State}
    (hrest : ∀ d u, known p x = known p u.xfer → Follows c q (rest d u) (rest d { c.put u with xfer := x })) :
    Follows c q (descRead s a rest) (descRead { c.put s with xfer := x } a' rest) := by
  subst ha
  exact readPlan_follows _ hx _ _ fun _ _ hu => hrest _ _ hu

theorem phaseBase_follows {s : State} {x : Xfer} (_ : known .base x = known .base s.xfer) :
    Follows c .fill (phaseBase s) (phaseBase { c.put s with xfer := x }) :=
  .underway _ rfl rfl

theorem phaseFill_follows {s : State} {x : Xfer} (hx : known .fill x = known .fill s.xfer) :
    Follows c .head (phaseFill s) (phaseFill { c.put s with xfer := x }) :=
  have havail : x.avail = s.xfer.avail := (congrArg Xfer.avail hx :)
  memRead_follows hx (congrArg (fillAddr s.params) havail) .h fun bytes _ hu =>
    .underway _ rfl (congrArg
      (fun y => { y with fill := leField 16 bytes, slot := slotOf (leField 16 bytes) }) hu)

theorem phaseHead_follows {s : State} {x : Xfer} (hx : known .head x = known .head s.xfer) :
    Follows c .desc0 (phaseHead s) (phaseHead { c.put s with xfer := x }) :=
  have havail : x.avail = s.xfer.avail := (congrArg Xfer.avail hx :)
  have hslot : x.slot = s.xfer.slot := (congrArg Xfer.slot hx :)
  memRead_follows hx (congrArg₂ (slotAddr s.params) havail hslot) .h fun bytes _ hu =>
    .underway _ rfl (congrArg (fun y => { y with head := leField 16 bytes }) hu)

theorem phaseDesc0_follows {s : State} {x : Xfer} (hx : known .desc0 x = known .desc0 s.xfer) :
    Follows c .desc1 (phaseDesc0 s) (phaseDesc0 { c.put s with xfer := x }) :=
  have hbase : x.base = s.xfer.base := (congrArg Xfer.base hx :)
  have hhead : x.head = s.xfer.head := (congrArg Xfer.head hx :)
  descRead_follows hx (congrArg₂ descAddr hbase hhead) fun d _ hu =>
    .underway _ rfl (congrArg (fun y => { y with d0 := d }) hu)

theorem phaseDesc1_follows {s : State} {x : Xfer} (hx : known .desc1 x = known .desc1 s.xfer) :
    Follows c .sector (phaseDesc1 s) (phaseDesc1 { c.put s with xfer := x }) :=
  have hbase : x.base = s.xfer.base := (congrArg Xfer.base hx :)
  have hd0 : x.d0 = s.xfer.d0 := (congrArg Xfer.d0 hx :)
  descRead_follows hx (congrArg₂ (fun base d0 => descAddr base (Desc.next d0)) hbase hd0) fun d _ hu =>
    .underway _ rfl (congrArg (fun y => { y with d1 := d }) hu)

theorem phaseSector_follows {s : State} {x : Xfer} (hx : known .sector x = known .sector s.xfer) :
    Follows c .copy (phaseSector s) (phaseSector { c.put s with xfer := x }) :=
  have hd0 : x.d0 = s.xfer.d0 := (congrArg Xfer.d0 hx :)
  memRead_follows hx (congrArg sectorAddr hd0) .d fun bytes _ hu =>
    .underway _ rfl (congrArg (fun y => { y with sector := leField 64 bytes, i := 0 }) hu)

/-- A phase runs in both runs or in neither. -/
theorem thenPhase_follows {f : State → State}
    (hf : ∀ {s : State} {x : Xfer}, known p x = known p s.xfer → Follows c q (f s) (f { c.put s with xfer := x }))
    {s t : State} (h : Follows c p s t) : Follows c q (thenPhase p f s) (thenPhase p f t) := by
  unfold thenPhase
  cases h with
  | same =>
    have hpc : (c.put s).pc = s.pc := rfl
    rw [hpc]
    split
    · exact hf (x := s.xfer) rfl
    · exact .same
  | underway x hpc hx =>
    rw [if_pos hpc, if_pos (by exact hpc)]
    exact hf hx

/-- At T_COPY every transient value is set. -/
theorem Follows.eq_put {s t : State} (h : Follows c .copy s t) : t = c.put s := by
  cases h with
  | same => rfl
  | underway x hpc hx =>
    have hall : x = s.xfer := hx
    rw [hall]
    rfl

/-! ## The copy and the phases after it -/

theorem memRead_put (c : Unread) (s : State) (a : Addr) (n : Size) {rest : List Byte → State → State}
    (hrest : ∀ bytes u, rest bytes (c.put u) = c.put (rest bytes u)) :
    memRead (c.put s) a n rest = c.put (memRead s a n rest) := by
  have hbus : busRead (c.put s) a n = busRead s a n := rfl
  unfold memRead
  rw [hbus]
  split
  · exact hrest _ (accessed _ _ s)
  · rfl

theorem memWrite_put (c : Unread) (s : State) (a : Addr) (bytes : List Byte) {rest : State → State}
    (hrest : ∀ u, rest (c.put u) = c.put (rest u)) :
    memWrite (c.put s) a bytes rest = c.put (memWrite s a bytes rest) := by
  have hbus : busWrite (c.put s) a bytes = busWrite s a bytes := rfl
  unfold memWrite
  rw [hbus]
  split
  · exact hrest (accessed _ _ s)
  · rfl

theorem diskWrite_put (c : Unread) (s : State) (off : Nat) (b : Byte) {rest : State → State}
    (hrest : ∀ u, rest (c.put u) = c.put (rest u)) :
    diskWrite (c.put s) off b rest = c.put (diskWrite s off b rest) := by
  have hdisk : (c.put s).disk = s.disk := rfl
  unfold diskWrite
  rw [hdisk]
  split
  · exact hrest { s with disk := s.disk.set off b }
  · rfl

theorem diskRead_put (c : Unread) (s : State) (off : Nat) {rest : Byte → State → State}
    (hrest : ∀ b u, rest b (c.put u) = c.put (rest b u)) :
    diskRead (c.put s) off rest = c.put (diskRead s off rest) := by
  have hdisk : (c.put s).disk = s.disk := rfl
  unfold diskRead
  rw [hdisk]
  split
  · exact hrest _ s
  · rfl

theorem copyG2d_put (c : Unread) (s : State) : copyG2d (c.put s) = c.put (copyG2d s) := by
  have hxfer : (c.put s).xfer = s.xfer := rfl
  unfold copyG2d
  rw [hxfer]
  split
  · exact memRead_put c s _ _ fun _ u => diskWrite_put c u _ _ fun _ => rfl
  · rfl

theorem copyD2g_put (c : Unread) (s : State) : copyD2g (c.put s) = c.put (copyD2g s) := by
  have hxfer : (c.put s).xfer = s.xfer := rfl
  unfold copyD2g
  rw [hxfer]
  split
  · exact diskRead_put c s _ fun _ u => memWrite_put c u _ _ fun _ => rfl
  · rfl

theorem copyStep_put (c : Unread) (s : State) : copyStep (c.put s) = c.put (copyStep s) := by
  have hxfer : (c.put s).xfer = s.xfer := rfl
  unfold copyStep
  rw [hxfer]
  split
  · exact copyD2g_put c s
  · exact copyG2d_put c s

theorem copyLoop_put (c : Unread) (n : Nat) (s : State) : copyLoop n (c.put s) = c.put (copyLoop n s) := by
  induction n generalizing s with
  | zero => rfl
  | succ n ih =>
    have hpc : (c.put s).pc = s.pc := rfl
    unfold copyLoop
    rw [hpc, copyStep_put, ih]
    split <;> rfl

theorem phaseCopy_put (c : Unread) (s : State) : phaseCopy (c.put s) = c.put (phaseCopy s) := copyLoop_put c _ s

theorem phaseId_put (c : Unread) (s : State) : phaseId (c.put s) = c.put (phaseId s) := rfl

theorem phaseUsed_put (c : Unread) (s : State) : phaseUsed (c.put s) = c.put (phaseUsed s) :=
  memWrite_put c s _ _ fun _ => rfl

theorem thenPhase_put {f : State → State} (hf : ∀ s, f (c.put s) = c.put (f s)) {s t : State} (h : t = c.put s) :
    thenPhase p f t = c.put (thenPhase p f s) := by
  have hpc : (c.put s).pc = s.pc := rfl
  subst h
  unfold thenPhase
  rw [hpc, hf]
  split <;> rfl

/-! ## The whole transfer -/

/-- A transfer from T_BASE passes over the unread registers and whatever stands in the transient values. -/
theorem transfer_put {s : State} (hpc : s.pc = .base) (x : Xfer) :
    transfer { c.put s with xfer := x } = c.put (transfer s) := by
  have hcopy : Follows c .copy (thenPhase .sector phaseSector _) (thenPhase .sector phaseSector _) :=
    thenPhase_follows phaseSector_follows <| thenPhase_follows phaseDesc1_follows <|
    thenPhase_follows phaseDesc0_follows <| thenPhase_follows phaseHead_follows <|
    thenPhase_follows phaseFill_follows <| thenPhase_follows phaseBase_follows (.underway x hpc rfl)
  unfold transfer
  exact thenPhase_put (phaseUsed_put c) (thenPhase_put (phaseId_put c) (thenPhase_put (phaseCopy_put c) hcopy.eq_put))

/-- `marksPending` compares with the sentinel, if there is one (R126). -/
theorem marksPending_eq_decide (p : Params) (v : Word32) :
    marksPending p v = decide (p.notifySentinel ≠ some v) := by
  unfold marksPending
  split
  next h => simp [h]
  next sentinel h => simp [h, bne, Bool.beq_eq_decide_eq, eq_comm]

theorem execWrNotify_of_configured {v : Word64} {s : State} (hpc : s.pc = .idle) (hq : queueConfigured s = true) :
    execWrNotify v s = .next (transfer (startTransfer (writeValue v) s)) := by
  simp [execWrNotify, hq, atPort_idle hpc]

/-- Settles O49: the two runs start their transfers in states that differ in the unread registers and the old
transient values only. -/
theorem transferIgnoresQueueSelectionAndOldValues : Obligations.TransferIgnoresQueueSelectionAndOldValues := by
  intro v w s t qsel qnum value x ans h
  obtain ⟨hpc, hq, ht⟩ := execWrNotify_next h
  have hrun := execWrNotify_of_configured (v := w)
    (s := { s with qsel := qsel, qnum := qnum, notifyValue := value, xfer := x, answer := ans }) hpc hq
  refine hrun.trans ?_
  rw [ht, ← marksPending_eq_decide]
  exact congrArg Host.Outcome.next (transfer_put (c := ⟨qsel, qnum, _, writeValue w⟩)
    (s := startTransfer (writeValue v) s) rfl x)

end Sys2Proof.Machine
end

section
/-! PROOFS. Guest memory as a reader sees it: a field is the little-endian number in its bytes (spec/20_memory.md R41,
R80), and a write is read back at its addresses, which wrap at 2^64 (R41, R52). -/

namespace Sys2Proof.Machine

open Sys2Proof.Safety

/-! ## Little-endian fields -/

theorem leNat_lt (bytes : List Byte) : leNat bytes < 256 ^ bytes.length := by
  induction bytes with
  | nil => simp [leNat]
  | cons b rest ih =>
    have hb := b.isLt
    simp only [leNat, List.length_cons, pow_succ]
    omega

/-- Of bytes that fill a field of `w` bits at most, the field holds the number. -/
theorem leField_toNat {w : Nat} {bytes : List Byte} (h : 8 * bytes.length ≤ w) :
    (leField w bytes).toNat = leNat bytes := by
  have hlt : leNat bytes < 2 ^ w :=
    calc leNat bytes < 256 ^ bytes.length := leNat_lt bytes
      _ = 2 ^ (8 * bytes.length) := (pow_mul 2 8 bytes.length).symm
      _ ≤ 2 ^ w := Nat.pow_le_pow_right (by decide) h
  rw [leField, BitVec.toNat_ofNat, Nat.mod_eq_of_lt hlt]

theorem addr_succ_add (a : Addr) (k : Nat) : a + 1#64 + BitVec.ofNat 64 k = a + BitVec.ofNat 64 (k + 1) := by
  rw [BitVec.add_assoc, Nat.add_comm k 1, BitVec.ofNat_add]

/-- Byte `k` of a little-endian number counts 256^k (R41). -/
theorem leNat_readBytes (m : Memory) (a : Addr) (n : Nat) :
    leNat (readBytes m a n) =
      ∑ k ∈ Finset.range n, (readByte m (a + BitVec.ofNat 64 k).toNat).toNat * 256 ^ k := by
  induction n generalizing a with
  | zero => rfl
  | succ n ih =>
    rw [readBytes, leNat, ih, Finset.sum_range_succ', Finset.mul_sum, Nat.add_comm]
    simp only [addr_succ_add, Nat.mul_left_comm 256, ← pow_succ', pow_zero, mul_one, BitVec.ofNat_eq_ofNat,
      BitVec.add_zero]

/-- A field of `8 * n` bits or more, read from memory. -/
theorem leField_readBytes_toNat {w n : Nat} (h : 8 * n ≤ w) (m : Memory) (a : Addr) :
    (leField w (readBytes m a n)).toNat =
      ∑ k ∈ Finset.range n, (readByte m (a + BitVec.ofNat 64 k).toNat).toNat * 256 ^ k := by
  rw [leField_toNat (by rwa [readBytes_length]), leNat_readBytes]

/-- The slice of `n` bytes after the first `off` of a read is the read of `n` bytes at that distance. -/
theorem readBytes_slice (m : Memory) (a : Addr) (off n more : Nat) :
    ((readBytes m a (off + (n + more))).drop off).take n = readBytes m (a + BitVec.ofNat 64 off) n := by
  rw [readBytes_add, List.drop_left' (readBytes_length ..), readBytes_add, List.take_left' (readBytes_length ..)]

/-- The record in 16 bytes of memory: each field is read at its own distance (R80). -/
theorem descOfBytes_readBytes (m : Memory) (a : Addr) :
    descOfBytes (readBytes m a 16) =
      ⟨leField 64 (readBytes m (a + BitVec.ofNat 64 0) 8), leField 32 (readBytes m (a + BitVec.ofNat 64 8) 4),
       leField 16 (readBytes m (a + BitVec.ofNat 64 12) 2), leField 16 (readBytes m (a + BitVec.ofNat 64 14) 2)⟩ := by
  rw [← readBytes_slice m a 0 8 8, ← readBytes_slice m a 8 4 4, ← readBytes_slice m a 12 2 2,
    ← readBytes_slice m a 14 2 0]
  rfl

/-- Settles O33: each field of the record is a read of its own, which the little-endian sum gives at its distance. -/
theorem descriptorFieldsAreLittleEndian : Obligations.DescriptorFieldsAreLittleEndian := by
  rintro m a d rfl
  rw [descOfBytes_readBytes]
  refine ⟨?_, ?_, ?_, ?_⟩
  all_goals
    rw [leField_readBytes_toNat (by decide)]
    simp only [BitVec.add_assoc, ← BitVec.ofNat_add, Nat.zero_add]

/-! ## Writes read back -/

/-- A write leaves every byte that it does not cover, also where it runs over the end of the address space. -/
theorem readByte_writeBytes_uncovered {m : Memory} {a x : Addr} {bytes : List Byte}
    (h : bytes.length ≤ (x - a).toNat) : readByte (writeBytes m a bytes) x.toNat = readByte m x.toNat := by
  induction bytes generalizing m a with
  | nil => rfl
  | cons b rest ih =>
    rw [List.length_cons] at h
    have hne : x ≠ a := by rintro rfl; simp at h
    rw [writeBytes, ih (by bv_omega), readByte_writeByte_other m b (by simpa [BitVec.toNat_inj] using hne)]

/-- Settles O36, by induction on the bytes: the byte at the first address is its own, and the rest, at most 2^64 - 1
bytes from the next address on, does not come round to it. -/
theorem guestMemoryReadsBackWhatWasWritten : Obligations.GuestMemoryReadsBackWhatWasWritten := by
  intro m a x bytes hwf hlen
  induction bytes generalizing m a with
  | nil => rfl
  | cons b rest ih =>
    rw [List.length_cons] at hlen
    rw [writeBytes]
    by_cases hx : x = a
    · subst hx
      rw [readByte_writeBytes_uncovered (by bv_omega), readByte_writeByte_same b hwf]
      simp
    · have hnext : (x - a).toNat = (x - (a + 1)).toNat + 1 := by bv_omega
      rw [ih _ _ (writeByte_wf a b hwf) (by omega), hnext, List.getElem?_cons_succ,
        readByte_writeByte_other m b (by simpa [BitVec.toNat_inj] using hx)]

end Sys2Proof.Machine
end

section
/-! PROOFS. What the bus answers is taken, whatever it is (spec/20_memory.md R44): the engine's accesses to the own
window (R57), the phases and DESC.READ on an answered and on a refused access (R150, R162 to R169, R191, R210), and
what stands in `inbox` without being the device's (R51, R72). -/

namespace Sys2Proof.Machine

open Sys2Proof.Safety

/-! ## The own window -/

theorem busRead_window {s : State} {a : Addr} (h : addrInWindow s.params a = true) (n : Size) :
    busRead s a n = (windowLoad s a n, s.mem) := if_pos h

theorem busWrite_window {s : State} {a : Addr} (h : addrInWindow s.params a = true) (bytes : List Byte) :
    busWrite s a bytes = (windowStore s, s.mem) := if_pos h

/-- A read of the engine that is not 4 bytes wide is a wrong-size read (R111). -/
theorem windowLoad_fault {s : State} (hpolicy : s.params.badsizePolicy = .fault) (a : Addr) {n : Size} (hn : n ≠ .w) :
    windowLoad s a n = none := by
  cases n <;> simp_all [windowLoad]

theorem windowLoad_zero {s : State} (hpolicy : s.params.badsizePolicy = .zero) (a : Addr) {n : Size} (hn : n ≠ .w) :
    windowLoad s a n = some (List.replicate n.bytes 0) := by
  cases n <;> simp_all [windowLoad]

/-- Settles O37: the register map does not hold `pc`, and the window answers before the map of the bus is looked at. -/
theorem windowAccessesOfTheEngineReachTheRegisters : Obligations.WindowAccessesOfTheEngineReachTheRegisters := by
  intro s a n bytes hwin
  refine ⟨⟨registerRead s (a - s.params.virtioBase), exec_decodeRead _ rfl, busRead_window hwin .w⟩,
    fun hpolicy hn => ?_, fun hpolicy hn => ?_, fun _ => ⟨fun hpolicy => ?_, fun hpolicy => ?_⟩⟩
  · rw [busRead_window hwin, windowLoad_fault hpolicy a hn]
  · rw [busRead_window hwin, windowLoad_zero hpolicy a hn]
  · rw [busWrite_window hwin, windowStore, hpolicy]
  · rw [busWrite_window hwin, windowStore, hpolicy]

/-! ## Inputs that are not the device's -/

theorem addrInWindow_eq_false {p : Params} {a : Addr}
    (h : a.toNat < p.virtioBase.toNat ∨ p.virtioBase.toNat + p.virtioSize ≤ a.toNat) :
    addrInWindow p a = false := by
  simp only [addrInWindow, Bool.and_eq_false_iff, decide_eq_false_iff_not]
  omega

/-- In IDLE a request that is no operation of the device only leads to the state after it. -/
theorem step_quiet {s t : State} (hpc : s.pc = .idle) (h : fetchEvent s s.inbox = .quiet t) : step s = .next t := by
  simp only [step, fetch, hpc, h]

/-- Settles O55: neither input is decoded to an operation. -/
theorem otherInputsTouchNoDeviceState : Obligations.OtherInputsTouchNoDeviceState := by
  intro s rest hpc
  refine ⟨fun addr bytes hin => step_quiet hpc ?_, fun we size addr wdata hin hout => step_quiet hpc ?_⟩
  · rw [hin]
    rfl
  · rw [hin, fetchEvent, decodeTransaction, addrInWindow_eq_false hout]
    rfl

/-! ## Accesses by the answer of the bus -/

theorem memRead_answered {s : State} {a : Addr} {n : Size} {bytes : List Byte} {m : Memory}
    (h : busRead s a n = (some bytes, m)) (rest : List Byte → State → State) :
    memRead s a n rest = rest bytes (accessed (.load a n) m s) := by
  rw [memRead, h]

theorem memRead_refused {s : State} {a : Addr} {n : Size} {m : Memory} (h : busRead s a n = (none, m))
    (rest : List Byte → State → State) :
    memRead s a n rest = raiseBusFault .load a (accessed (.load a n) m s) := by
  rw [memRead, h]

theorem memWrite_done {s : State} {a : Addr} {bytes : List Byte} {m : Memory} (h : busWrite s a bytes = (true, m))
    (rest : State → State) : memWrite s a bytes rest = rest (accessed (.store a bytes) m s) := by
  rw [memWrite, h]

theorem memWrite_refused {s : State} {a : Addr} {bytes : List Byte} {m : Memory}
    (h : busWrite s a bytes = (false, m)) (rest : State → State) :
    memWrite s a bytes rest = raiseBusFault .store a (accessed (.store a bytes) m s) := by
  rw [memWrite, h]

theorem diskRead_inside {s : State} {off : Nat} {b : Byte} (h : s.disk[off]? = some b)
    (rest : Byte → State → State) : diskRead s off rest = rest b s := by
  rw [diskRead, h]

theorem diskWrite_inside {s : State} {off : Nat} (h : off < s.disk.length) (b : Byte) (rest : State → State) :
    diskWrite s off b rest = rest { s with disk := s.disk.set off b } := if_pos h

theorem diskWrite_past {s : State} {off : Nat} (h : s.disk.length ≤ off) (b : Byte) (rest : State → State) :
    diskWrite s off b rest = raiseDiskAbort off s := if_neg (Nat.not_lt.mpr h)

/-- A descriptor whose reads the bus answers: the rest on the record in all their bytes. -/
theorem descRead_answered {s t : State} {a : Addr} {raw : List Byte}
    (h : planAnswers s s.params.descReadPlan a = some (raw, t)) (rest : Desc → State → State) :
    descRead s a rest = rest (descOfBytes raw) { s with mem := t.mem, busLog := t.busLog } := by
  have hplan := readPlan_answers (raw := []) h [] fun raw s' => rest (descOfBytes raw) s'
  rw [List.append_nil] at hplan
  rw [← planAnswers_state h]
  exact hplan

/-- A descriptor of which the bus answers the first reads and refuses the next one: the fault of that read. -/
theorem descRead_refused {s t : State} {a : Addr} {before after : List Size} {n : Size} {raw : List Byte} {m : Memory}
    (hplan : s.params.descReadPlan = before ++ n :: after) (h : planAnswers s before a = some (raw, t))
    (hread : busRead t (a + BitVec.ofNat 64 (planBytes before)) n = (none, m)) (rest : Desc → State → State) :
    descRead s a rest = raiseBusFault .load (a + BitVec.ofNat 64 (planBytes before))
      { s with mem := m, busLog := .load (a + BitVec.ofNat 64 (planBytes before)) n :: t.busLog } := by
  rw [descRead, hplan, readPlan_answers h, readPlan, memRead_refused hread, planAnswers_state h]
  rfl

/-! ## Fields of one and two bytes -/

theorem leField_one (b : Byte) : leField 8 [b] = b := by
  simp [leField, leNat]

theorem leField_two (b0 b1 : Byte) : leField 16 [b0, b1] = b1 ++ b0 := by
  have h0 := b0.isLt
  apply BitVec.eq_of_toNat_eq
  rw [leField_toNat (Nat.le_refl 16), BitVec.toNat_append, ← Nat.shiftLeft_add_eq_or_of_lt h0, Nat.shiftLeft_eq]
  simp only [leNat]
  omega

/-- The slot is the low three bits of the ring's index (R162). -/
theorem slotOf_append (b0 b1 : Byte) : slotOf (b1 ++ b0) = b0.setWidth 3 := by
  rw [← leField_two]
  apply BitVec.eq_of_toNat_eq
  rw [slotOf, leField_toNat (Nat.le_refl 16)]
  simp only [leNat, Config.queueSize, BitVec.toNat_ofNat, BitVec.toNat_setWidth]
  omega

/-! ## When a phase or a primitive runs -/

theorem inPhase_of_eq {p : Phase} {s t u : State} (h : s.pc = p) (hp : p ≠ .dead) (ht : t = u) :
    inPhase p s t = .next u :=
  ht ▸ inPhase_self h hp

theorem primitive_of_eq {s t u : State} (h : s.pc ≠ .dead) (ht : t = u) : primitive s t = .next u :=
  (if_neg h).trans (congrArg _ ht)

theorem exec_dmaCopyG2d {s : State} (hpc : s.pc = .copy) (hdir : s.xfer.d1.flags.getLsbD 1 = false) :
    exec .dmaCopyG2d s = .next (copyG2d s) :=
  (if_neg fun h => Bool.noConfusion (hdir.symm.trans h.2)).trans (inPhase_self hpc (by decide))

theorem exec_dmaCopyD2g {s : State} (hpc : s.pc = .copy) (hdir : s.xfer.d1.flags.getLsbD 1 = true) :
    exec .dmaCopyD2g s = .next (copyD2g s) :=
  (if_neg fun h => Bool.noConfusion (hdir.symm.trans h.2)).trans (inPhase_self hpc (by decide))

/-! ## The phases on the answer of the bus -/

theorem phaseFill_answered {s : State} {b0 b1 : Byte} {m : Memory}
    (h : busRead s (fillAddr s.params s.xfer.avail) .h = (some [b0, b1], m)) :
    phaseFill s = { s with
      pc := .head, xfer := { s.xfer with fill := b1 ++ b0, slot := b0.setWidth 3 },
      mem := m, busLog := .load (fillAddr s.params s.xfer.avail) .h :: s.busLog } := by
  rw [phaseFill, memRead_answered h, leField_two, slotOf_append]
  rfl

theorem phaseHead_answered {s : State} {b0 b1 : Byte} {m : Memory}
    (h : busRead s (slotAddr s.params s.xfer.avail s.xfer.slot) .h = (some [b0, b1], m)) :
    phaseHead s = { s with
      pc := .desc0, xfer := { s.xfer with head := b1 ++ b0 }, mem := m,
      busLog := .load (slotAddr s.params s.xfer.avail s.xfer.slot) .h :: s.busLog } := by
  rw [phaseHead, memRead_answered h, leField_two]
  rfl

/-- While bytes are left the guest byte is read first (R168). -/
theorem copyG2d_of_left {s : State} (h : s.xfer.i.toNat < s.xfer.d1.length.toNat) :
    copyG2d s = memRead s (bufferAddr s.xfer.d1 s.xfer.i) .b fun bytes s' =>
      diskWrite s' (diskOffset s'.xfer.sector s'.xfer.i) (leField 8 bytes) nextByte :=
  if_pos (decide_eq_true h)

/-- While bytes are left the disk byte is read first, here one inside the disk (R169). -/
theorem copyD2g_of_left {s : State} {b : Byte} (h : s.xfer.i.toNat < s.xfer.d1.length.toNat)
    (hbyte : s.disk[diskOffset s.xfer.sector s.xfer.i]? = some b) :
    copyD2g s = memWrite s (bufferAddr s.xfer.d1 s.xfer.i) [b] nextByte :=
  (if_pos (decide_eq_true h)).trans (diskRead_inside hbyte _)

/-- A byte read from the guest goes to the disk; past its end the device is DEAD, with the read on the record. -/
theorem copyG2d_answered {s : State} {b : Byte} {m : Memory} (hleft : s.xfer.i.toNat < s.xfer.d1.length.toNat)
    (h : busRead s (bufferAddr s.xfer.d1 s.xfer.i) .b = (some [b], m)) :
    copyG2d s = diskWrite (accessed (.load (bufferAddr s.xfer.d1 s.xfer.i) .b) m s)
      (diskOffset s.xfer.sector s.xfer.i) b nextByte := by
  rw [copyG2d_of_left hleft, memRead_answered h, leField_one]
  rfl

/-- The field that T_USED writes, by the answer of the bus to it (R191). -/
theorem phaseUsed_eq (s : State) :
    phaseUsed s = memWrite s (usedFieldAddr s.xfer.used) [BitVec.ofNat 8 (s.id % 8), 0] (endTransfer .done) := by
  rw [phaseUsed, usedFieldBytes_eq]

/-- Settles O59: every phase and DESC.READ is one access, or the reads of a plan, with the rest as its continuation, so
each clause is the equation of that access for the answer given. -/
theorem phasesTakeWhateverTheBusAnswers : Obligations.PhasesTakeWhateverTheBusAnswers := by
  intro s a m b0 b1
  refine ⟨?fill, ?head, ?plan, ?refusedPlan, ?sector, ?copy, ?used⟩
  case fill =>
    rintro hpc rfl
    exact ⟨fun h => inPhase_of_eq hpc (by decide) (phaseFill_answered h),
      fun h => inPhase_of_eq hpc (by decide) (memRead_refused h _)⟩
  case head =>
    rintro hpc rfl
    exact ⟨fun h => inPhase_of_eq hpc (by decide) (phaseHead_answered h),
      fun h => inPhase_of_eq hpc (by decide) (memRead_refused h _)⟩
  case plan =>
    intro raw t hplan
    refine ⟨?_, ?_, fun hpc => ?_⟩
    · rintro hpc rfl
      exact inPhase_of_eq hpc (by decide) (descRead_answered hplan _)
    · rintro hpc rfl
      exact inPhase_of_eq hpc (by decide) (descRead_answered hplan _)
    · exact primitive_of_eq hpc (descRead_answered hplan _)
  case refusedPlan =>
    rintro before after n raw t b hplan hans rfl hread i (⟨rfl, hpc, rfl⟩ | ⟨rfl, hpc, rfl⟩ | ⟨rfl, hpc⟩)
    · exact inPhase_of_eq hpc (by decide) (descRead_refused hplan hans hread _)
    · exact inPhase_of_eq hpc (by decide) (descRead_refused hplan hans hread _)
    · exact primitive_of_eq hpc (descRead_refused hplan hans hread _)
  case sector =>
    rintro hpc rfl
    exact ⟨fun bytes h => inPhase_of_eq hpc (by decide) (memRead_answered h _),
      fun h => inPhase_of_eq hpc (by decide) (memRead_refused h _)⟩
  case copy =>
    rintro hpc rfl hleft off rfl
    refine ⟨fun hdir => ?_, fun hdir hbyte => ?_⟩
    · rw [exec_dmaCopyG2d hpc hdir]
      refine ⟨fun h hin => ?_, fun h hpast => ?_, fun h => ?_⟩ <;> refine congrArg _ ?_
      · exact (copyG2d_answered hleft h).trans (diskWrite_inside (by exact hin) _ _)
      · exact (copyG2d_answered hleft h).trans (diskWrite_past (by exact hpast) _ _)
      · exact (copyG2d_of_left hleft).trans (memRead_refused h _)
    · rw [exec_dmaCopyD2g hpc hdir, copyD2g_of_left hleft hbyte]
      exact ⟨fun h => congrArg _ (memWrite_done h _), fun h => congrArg _ (memWrite_refused h _)⟩
  case used =>
    rintro hpc rfl
    exact ⟨fun h => inPhase_of_eq hpc (by decide) ((phaseUsed_eq s).trans (memWrite_done h _)),
      fun h => inPhase_of_eq hpc (by decide) ((phaseUsed_eq s).trans (memWrite_refused h _))⟩

end Sys2Proof.Machine
end

section
/-! PROOFS. What the accesses of an operation leave of guest memory (spec/20_memory.md R40, R44, R45): the record grows
by them, and off the device regions memory changes by their stores only (`Traced`); and which operations change the
disk and x[ID] (R203, R173). -/

namespace Sys2Proof.Machine

open Sys2Proof.Safety

/-! ## Memory along the record of the bus -/

/-- The guest memory that accesses from `s` on (newest first) can leave: a load leaves it as it is, a store, in an
operation that may store, leaves it or lays its bytes over it, and an access on a device region leaves any memory
(log 5, log 6). -/
inductive Leaves (s : State) (mayStore : Prop) : List BusAccess → Memory → Prop
  | start : Leaves s mayStore [] s.mem
  | load (a : Addr) (n : Size) {log : List BusAccess} {m : Memory} (h : Leaves s mayStore log m) :
      Leaves s mayStore (.load a n :: log) m
  | refused (may : mayStore) (a : Addr) (bytes : List Byte) {log : List BusAccess} {m : Memory}
      (h : Leaves s mayStore log m) : Leaves s mayStore (.store a bytes :: log) m
  | stored (may : mayStore) (a : Addr) (bytes : List Byte) {log : List BusAccess} {m : Memory}
      (h : Leaves s mayStore log m) : Leaves s mayStore (.store a bytes :: log) (writeBytes m a bytes)
  | device {acc : BusAccess} (hdev : onDevice s acc = true) (m' : Memory) {log : List BusAccess} {m : Memory}
      (h : Leaves s mayStore log m) : Leaves s mayStore (acc :: log) m'

/-- Off the device regions a byte that no store covers reads as before. -/
theorem Leaves.readByte_uncovered {s : State} {mayStore : Prop} {log : List BusAccess} {m : Memory}
    (h : Leaves s mayStore log m) (hdev : ∀ acc ∈ log, onDevice s acc = false) {x : Addr}
    (hx : ∀ acc ∈ log, ¬ stores acc x) : readByte m x.toNat = readByte s.mem x.toNat := by
  induction h with
  | start => rfl
  | load a n h ih =>
    exact ih (fun acc hacc => hdev acc (.tail _ hacc)) (fun acc hacc => hx acc (.tail _ hacc))
  | refused may a bytes h ih =>
    exact ih (fun acc hacc => hdev acc (.tail _ hacc)) (fun acc hacc => hx acc (.tail _ hacc))
  | stored may a bytes h ih =>
    have huncovered : ¬ (x - a).toNat < bytes.length := hx _ (.head _)
    rw [readByte_writeBytes_uncovered (by omega)]
    exact ih (fun acc hacc => hdev acc (.tail _ hacc)) (fun acc hacc => hx acc (.tail _ hacc))
  | device hon => exact absurd (hdev _ (.head _)) (by simp [hon])

/-- Without stores memory changes by an access on a device region only. -/
theorem Leaves.mem_eq_or_onDevice {s : State} {log : List BusAccess} {m : Memory} (h : Leaves s False log m) :
    m = s.mem ∨ ∃ acc ∈ log, onDevice s acc = true := by
  induction h with
  | start => exact .inl rfl
  | load a n h ih => exact ih.imp_right fun ⟨acc, hacc, hon⟩ => ⟨acc, .tail _ hacc, hon⟩
  | refused may => exact may.elim
  | stored may => exact may.elim
  | device hon => exact .inr ⟨_, .head _, hon⟩

/-- From `s` to `t` the record of the bus has grown by accesses that can leave the memory of `t`. -/
structure Traced (mayStore : Prop) (s t : State) : Prop extends SameSetup s t where
  trace : ∃ log, t.busLog = log ++ s.busLog ∧ Leaves s mayStore log t.mem

theorem Traced.refl (mayStore : Prop) (s : State) : Traced mayStore s s := ⟨⟨rfl, rfl⟩, [], rfl, .start⟩

/-- An update of what is not the environment's keeps the trace. -/
theorem Traced.of_same_bus {mayStore : Prop} {s t u : State} (h : Traced mayStore s t) (hp : u.params = t.params)
    (hr : u.regions = t.regions) (hm : u.mem = t.mem) (hl : u.busLog = t.busLog) : Traced mayStore s u :=
  ⟨⟨hp.trans h.params, hr.trans h.regions⟩, by rw [hm, hl]; exact h.trace⟩

theorem onDevice_congr {s t : State} (h : SameSetup s t) (acc : BusAccess) : onDevice t acc = onDevice s acc := by
  cases acc <;> simp [onDevice, h.params, h.regions]

theorem Traced.accessed_load {mayStore : Prop} {s t : State} (h : Traced mayStore s t) (a : Addr) (n : Size) :
    Traced mayStore s (accessed (.load a n) (busRead t a n).2 t) := by
  obtain ⟨hsetup, log, hlog, hleaves⟩ := h
  refine ⟨⟨hsetup.params, hsetup.regions⟩, .load a n :: log, congrArg _ hlog, ?_⟩
  cases hon : onDevice s (.load a n) with
  | true => exact .device hon _ hleaves
  | false =>
    rw [busRead_mem t a n ((onDevice_congr hsetup _).trans hon)]
    exact .load a n hleaves

theorem Traced.accessed_store {mayStore : Prop} (may : mayStore) {s t : State} (h : Traced mayStore s t) (a : Addr)
    (bytes : List Byte) : Traced mayStore s (accessed (.store a bytes) (busWrite t a bytes).2 t) := by
  obtain ⟨hsetup, log, hlog, hleaves⟩ := h
  refine ⟨⟨hsetup.params, hsetup.regions⟩, .store a bytes :: log, congrArg _ hlog, ?_⟩
  cases hon : onDevice s (.store a bytes) with
  | true => exact .device hon _ hleaves
  | false =>
    rcases busWrite_mem t a bytes ((onDevice_congr hsetup _).trans hon) with hsame | hstored
    · rw [hsame]
      exact .refused may a bytes hleaves
    · rw [hstored]
      exact .stored may a bytes hleaves

/-! ## Accesses that raise -/

section

variable {mayStore : Prop} {s t : State}

theorem Traced.raiseBusFault (h : Traced mayStore s t) (kind : AccessKind) (a : Addr) :
    Traced mayStore s (raiseBusFault kind a t) :=
  h.of_same_bus rfl rfl rfl rfl

theorem memRead_traced (h : Traced mayStore s t) {a : Addr} {n : Size} {rest : List Byte → State → State}
    (hrest : ∀ bytes u, Traced mayStore s u → Traced mayStore s (rest bytes u)) :
    Traced mayStore s (memRead t a n rest) := by
  have hread := h.accessed_load a n
  refine memRead_cases t a n rest (fun bytes m e => hrest bytes _ ?_) (fun m e => Traced.raiseBusFault ?_ _ _)
  all_goals simpa only [e] using hread

theorem memWrite_traced (may : mayStore) (h : Traced mayStore s t) {a : Addr} {bytes : List Byte}
    {rest : State → State} (hrest : ∀ u, Traced mayStore s u → Traced mayStore s (rest u)) :
    Traced mayStore s (memWrite t a bytes rest) := by
  have hwrite := h.accessed_store may a bytes
  refine memWrite_cases t a bytes rest (fun m e => hrest _ ?_) (fun m e => Traced.raiseBusFault ?_ _ _)
  all_goals simpa only [e] using hwrite

theorem descRead_traced (h : Traced mayStore s t) {a : Addr} {rest : Desc → State → State}
    (hrest : ∀ d u, Traced mayStore s u → Traced mayStore s (rest d u)) : Traced mayStore s (descRead t a rest) :=
  descRead_cases (fun _ a n hu => hu.accessed_load a n) (fun _ a hu => hu.raiseBusFault .load a) rest hrest a t h

/-! ## Phases -/

theorem phaseBase_traced (h : Traced mayStore s t) : Traced mayStore s (phaseBase t) := h.of_same_bus rfl rfl rfl rfl

theorem phaseFill_traced (h : Traced mayStore s t) : Traced mayStore s (phaseFill t) :=
  memRead_traced h fun _ _ hu => hu.of_same_bus rfl rfl rfl rfl

theorem phaseHead_traced (h : Traced mayStore s t) : Traced mayStore s (phaseHead t) :=
  memRead_traced h fun _ _ hu => hu.of_same_bus rfl rfl rfl rfl

theorem phaseDesc0_traced (h : Traced mayStore s t) : Traced mayStore s (phaseDesc0 t) :=
  descRead_traced h fun _ _ hu => hu.of_same_bus rfl rfl rfl rfl

theorem phaseDesc1_traced (h : Traced mayStore s t) : Traced mayStore s (phaseDesc1 t) :=
  descRead_traced h fun _ _ hu => hu.of_same_bus rfl rfl rfl rfl

theorem phaseSector_traced (h : Traced mayStore s t) : Traced mayStore s (phaseSector t) :=
  memRead_traced h fun _ _ hu => hu.of_same_bus rfl rfl rfl rfl

theorem copyG2d_traced (h : Traced mayStore s t) : Traced mayStore s (copyG2d t) := by
  unfold copyG2d
  split
  · refine memRead_traced h fun _ u hu => ?_
    exact diskWrite_cases u _ _ _ (fun _ => hu.of_same_bus rfl rfl rfl rfl) (fun _ => hu.of_same_bus rfl rfl rfl rfl)
  · exact h.of_same_bus rfl rfl rfl rfl

theorem copyD2g_traced (may : mayStore) (h : Traced mayStore s t) : Traced mayStore s (copyD2g t) := by
  unfold copyD2g
  split
  · refine diskRead_cases t _ _ (fun _ _ => ?_) (fun _ => h.of_same_bus rfl rfl rfl rfl)
    exact memWrite_traced may h fun _ hu => hu.of_same_bus rfl rfl rfl rfl
  · exact h.of_same_bus rfl rfl rfl rfl

theorem copyLoop_traced (may : mayStore) (n : Nat) (h : Traced mayStore s t) : Traced mayStore s (copyLoop n t) := by
  induction n generalizing t with
  | zero => exact h
  | succ n ih =>
    unfold copyLoop copyStep
    split
    · split
      · exact ih (copyD2g_traced may h)
      · exact ih (copyG2d_traced h)
    · exact h

theorem phaseCopy_traced (may : mayStore) (h : Traced mayStore s t) : Traced mayStore s (phaseCopy t) :=
  copyLoop_traced may _ h

theorem phaseId_traced (h : Traced mayStore s t) : Traced mayStore s (phaseId t) := h.of_same_bus rfl rfl rfl rfl

theorem phaseUsed_traced (may : mayStore) (h : Traced mayStore s t) : Traced mayStore s (phaseUsed t) :=
  memWrite_traced may h fun _ hu => hu.of_same_bus rfl rfl rfl rfl

theorem thenPhase_traced {p : Phase} {f : State → State}
    (hf : ∀ {t}, Traced mayStore s t → Traced mayStore s (f t)) (h : Traced mayStore s t) :
    Traced mayStore s (thenPhase p f t) := by
  unfold thenPhase
  split
  · exact hf h
  · exact h

theorem transfer_traced (may : mayStore) (h : Traced mayStore s t) : Traced mayStore s (transfer t) :=
  thenPhase_traced (phaseUsed_traced may) <| thenPhase_traced phaseId_traced <|
  thenPhase_traced (phaseCopy_traced may) <| thenPhase_traced phaseSector_traced <|
  thenPhase_traced phaseDesc1_traced <| thenPhase_traced phaseDesc0_traced <|
  thenPhase_traced phaseHead_traced <| thenPhase_traced phaseFill_traced <|
  thenPhase_traced phaseBase_traced h

end

/-- Settles O47: a notify traces its transfer, which may store, from the state at the notify on. -/
theorem bytesOutsideTheRecordedStoresAreUnchanged : Obligations.BytesOutsideTheRecordedStoresAreUnchanged := by
  intro v s t h
  obtain ⟨-, -, ht⟩ := execWrNotify_next h
  have hstart : Traced True s (startTransfer (writeValue v) s) := (Traced.refl True s).of_same_bus rfl rfl rfl rfl
  obtain ⟨log, hlog, hleaves⟩ := ht ▸ (transfer_traced trivial hstart).trace
  exact ⟨log, hlog, fun hdev x hx => hleaves.readByte_uncovered hdev hx⟩

/-! ## Which operations change memory, the disk and x[ID] -/

theorem Served.traced {s t : State} (h : Served s t) (mayStore : Prop) : Traced mayStore s t := by
  cases h <;> exact (Traced.refl _ s).of_same_bus rfl rfl rfl rfl

/-- Every operation but a notify, DMA.COPY.D2G and DMA.USED only reads guest memory. -/
theorem Ran.traced {s t : State} {i : Instr} (h : Ran s i t) :
    Traced False s t ∨ (∃ v, i = .wrNotify v) ∨ i = .dmaCopyD2g ∨ i = .dmaUsed := by
  have hrefl := Traced.refl False s
  cases h with
  | wrNotify v => exact .inr (.inl ⟨v, rfl⟩)
  | copyD2g => exact .inr (.inr (.inl rfl))
  | used => exact .inr (.inr (.inr rfl))
  | served _ h => exact .inl (h.traced False)
  | irqQuery => exact .inl (hrefl.of_same_bus rfl rfl rfl rfl)
  | reset => exact .inl (hrefl.of_same_bus rfl rfl rfl rfl)
  | diskInit => exact .inl (hrefl.of_same_bus rfl rfl rfl rfl)
  | base => exact .inl (phaseBase_traced hrefl)
  | fill => exact .inl (phaseFill_traced hrefl)
  | head => exact .inl (phaseHead_traced hrefl)
  | desc0 => exact .inl (phaseDesc0_traced hrefl)
  | desc1 => exact .inl (phaseDesc1_traced hrefl)
  | sector => exact .inl (phaseSector_traced hrefl)
  | copyG2d => exact .inl (copyG2d_traced hrefl)
  | id => exact .inl (phaseId_traced hrefl)
  | descRead a => exact .inl (descRead_traced hrefl fun _ _ hu => hu.of_same_bus rfl rfl rfl rfl)
  | diskRdb off =>
    exact .inl (diskRead_cases s off _ (fun _ _ => hrefl.of_same_bus rfl rfl rfl rfl)
      (fun _ => hrefl.of_same_bus rfl rfl rfl rfl))
  | diskWrb off b =>
    exact .inl (diskWrite_cases s off b _ (fun _ => hrefl.of_same_bus rfl rfl rfl rfl)
      (fun _ => hrefl.of_same_bus rfl rfl rfl rfl))

/-- The disk and x[ID] are the same. -/
structure SameDiskAndId (s t : State) : Prop where
  disk : t.disk = s.disk
  id : t.id = s.id

theorem memRead_sameDiskAndId {s : State} {a : Addr} {n : Size} {rest : List Byte → State → State}
    (hrest : ∀ bytes u, SameDiskAndId s u → SameDiskAndId s (rest bytes u)) : SameDiskAndId s (memRead s a n rest) :=
  memRead_cases s a n rest (fun bytes _ _ => hrest bytes _ ⟨rfl, rfl⟩) (fun _ _ => ⟨rfl, rfl⟩)

theorem descRead_sameDiskAndId {s : State} {a : Addr} {rest : Desc → State → State}
    (hrest : ∀ d u, SameDiskAndId s u → SameDiskAndId s (rest d u)) : SameDiskAndId s (descRead s a rest) :=
  descRead_cases (Q := SameDiskAndId s) (fun _ _ _ hu => ⟨hu.disk, hu.id⟩) (fun _ _ hu => ⟨hu.disk, hu.id⟩) rest
    hrest a s ⟨rfl, rfl⟩

theorem copyD2g_sameDiskAndId (s : State) : SameDiskAndId s (copyD2g s) := by
  unfold copyD2g
  split
  · refine diskRead_cases s _ _ (fun _ _ => ?_) (fun _ => ⟨rfl, rfl⟩)
    exact memWrite_cases (P := SameDiskAndId s) s _ _ _ (fun _ _ => ⟨rfl, rfl⟩) (fun _ _ => ⟨rfl, rfl⟩)
  · exact ⟨rfl, rfl⟩

theorem phaseUsed_sameDiskAndId (s : State) : SameDiskAndId s (phaseUsed s) :=
  memWrite_cases (P := SameDiskAndId s) s _ _ _ (fun _ _ => ⟨rfl, rfl⟩) (fun _ _ => ⟨rfl, rfl⟩)

theorem copyG2d_id (s : State) : (copyG2d s).id = s.id := by
  unfold copyG2d
  split
  · refine memRead_cases (P := fun t => t.id = s.id) s _ _ _ (fun _ _ _ => ?_) (fun _ _ => rfl)
    exact diskWrite_cases (P := fun t => t.id = s.id) _ _ _ _ (fun _ => rfl) (fun _ => rfl)
  · rfl

theorem diskWrb_id (s : State) (off : Nat) (b : Byte) : (diskWrite s off b respondDone).id = s.id :=
  diskWrite_cases (P := fun t => t.id = s.id) s off b _ (fun _ => rfl) (fun _ => rfl)

theorem Served.sameDiskAndId {s t : State} (h : Served s t) : SameDiskAndId s t := by
  cases h <;> exact ⟨rfl, rfl⟩

/-- Which operations can change the disk, and which x[ID]. -/
theorem Ran.diskAndId {s t : State} {i : Instr} (h : Ran s i t) :
    SameDiskAndId s t ∨ (∃ v, i = .wrNotify v) ∨ i = .reset ∨ (i = .dmaId ∧ t.disk = s.disk) ∨
      ((i = .dmaCopyG2d ∨ (∃ off b, i = .diskWrb off b) ∨ ∃ image, i = .diskInit image) ∧ t.id = s.id) := by
  cases h with
  | wrNotify v => exact .inr (.inl ⟨v, rfl⟩)
  | reset => exact .inr (.inr (.inl rfl))
  | id => exact .inr (.inr (.inr (.inl ⟨rfl, rfl⟩)))
  | copyG2d => exact .inr (.inr (.inr (.inr ⟨.inl rfl, copyG2d_id s⟩)))
  | diskWrb off b => exact .inr (.inr (.inr (.inr ⟨.inr (.inl ⟨off, b, rfl⟩), diskWrb_id s off b⟩)))
  | diskInit image => exact .inr (.inr (.inr (.inr ⟨.inr (.inr ⟨image, rfl⟩), rfl⟩)))
  | served _ h => exact .inl h.sameDiskAndId
  | irqQuery => exact .inl ⟨rfl, rfl⟩
  | base => exact .inl ⟨rfl, rfl⟩
  | fill => exact .inl (memRead_sameDiskAndId fun _ _ hu => ⟨hu.disk, hu.id⟩)
  | head => exact .inl (memRead_sameDiskAndId fun _ _ hu => ⟨hu.disk, hu.id⟩)
  | desc0 => exact .inl (descRead_sameDiskAndId fun _ _ hu => ⟨hu.disk, hu.id⟩)
  | desc1 => exact .inl (descRead_sameDiskAndId fun _ _ hu => ⟨hu.disk, hu.id⟩)
  | sector => exact .inl (memRead_sameDiskAndId fun _ _ hu => ⟨hu.disk, hu.id⟩)
  | copyD2g => exact .inl (copyD2g_sameDiskAndId s)
  | used => exact .inl (phaseUsed_sameDiskAndId s)
  | descRead a => exact .inl (descRead_sameDiskAndId fun _ _ hu => ⟨hu.disk, hu.id⟩)
  | diskRdb off =>
    exact .inl (diskRead_cases (P := SameDiskAndId s) s off _ (fun _ _ => ⟨rfl, rfl⟩) (fun _ => ⟨rfl, rfl⟩))

/-- Settles O50: an operation that only reads changes guest memory by an access on a device region only; the disk and
x[ID] are those of the operations that name them. -/
theorem onlyTransfersTouchMemoryDiskAndId : Obligations.OnlyTransfersTouchMemoryDiskAndId := by
  intro i s t h
  refine ⟨fun hmem => ?_, fun hdisk => ?_, fun hid => ?_⟩
  · rcases (exec_ran h).traced with htraced | hnotify | hcopy | hused
    · obtain ⟨log, hlog, hleaves⟩ := htraced.trace
      exact .inr (.inr (.inr ⟨log, hlog, hleaves.mem_eq_or_onDevice.resolve_left hmem⟩))
    · exact .inl hnotify
    · exact .inr (.inl hcopy)
    · exact .inr (.inr (.inl hused))
  · rcases (exec_ran h).diskAndId with hsame | hnotify | hreset | ⟨-, hsame⟩ | ⟨hcopy | hwrite | hinit, -⟩
    · exact absurd hsame.disk hdisk
    · exact .inl hnotify
    · exact .inr (.inr (.inr (.inr hreset)))
    · exact absurd hsame hdisk
    · exact .inr (.inl hcopy)
    · exact .inr (.inr (.inl hwrite))
    · exact .inr (.inr (.inr (.inl hinit)))
  · rcases (exec_ran h).diskAndId with hsame | hnotify | hreset | ⟨hnext, -⟩ | ⟨-, hsame⟩
    · exact absurd hsame.id hid
    · exact .inl hnotify
    · exact .inr (.inr hreset)
    · exact .inr (.inl hnext)
    · exact absurd hsame hid

end Sys2Proof.Machine
end

section
/-! PROOFS. The decoder and the encoder (spec/30_encoding.md R71, R72, R74, R90, R91): they are inverse to each other
on well-formed operations, as are packing and unpacking a selector word; a step runs what its request or its phase
decodes to (R4). -/

namespace Sys2Proof.Machine

/-! ## The rows of R90 -/

theorem decodeWrite_of_notMem {off : Word64} (h : off ∉ writeSet) (v : Word64) : decodeWrite off v = .wrNop off v := by
  simp only [writeSet, List.mem_cons, List.not_mem_nil, or_false, not_or] at h
  simp only [decodeWrite, h, if_false]

/-- RD.ZERO is the row of exactly the offsets that no exact read row has (R110). -/
theorem decodeRead_eq_rdZero_iff {off : Word64} : decodeRead off = .rdZero off ↔ off ∉ readSet := by
  refine ⟨fun h hrow => ?_, decodeRead_of_notMem⟩
  simp only [readSet, List.mem_cons, List.not_mem_nil, or_false] at hrow
  rcases hrow with rfl | rfl | rfl | rfl | rfl | rfl | rfl | rfl | rfl <;> exact Instr.noConfusion h

/-- WR.NOP is the row of exactly the offsets that no exact write row has (R129). -/
theorem decodeWrite_eq_wrNop_iff {off v : Word64} : decodeWrite off v = .wrNop off v ↔ off ∉ writeSet := by
  refine ⟨fun h hrow => ?_, fun h => decodeWrite_of_notMem h v⟩
  simp only [writeSet, List.mem_cons, List.not_mem_nil, or_false] at hrow
  rcases hrow with rfl | rfl | rfl | rfl | rfl | rfl | rfl | rfl <;> exact Instr.noConfusion h

theorem encode_decodeRead (off : Word64) : encode (decodeRead off) = some (.slave (readOp .w off)) := by
  by_cases hrow : off ∈ readSet
  · simp only [readSet, List.mem_cons, List.not_mem_nil, or_false] at hrow
    rcases hrow with rfl | rfl | rfl | rfl | rfl | rfl | rfl | rfl | rfl <;> rfl
  · rw [decodeRead_of_notMem hrow]
    rfl

theorem encode_decodeWrite (off v : Word64) : encode (decodeWrite off v) = some (.slave (writeOp .w off v)) := by
  by_cases hrow : off ∈ writeSet
  · simp only [writeSet, List.mem_cons, List.not_mem_nil, or_false] at hrow
    rcases hrow with rfl | rfl | rfl | rfl | rfl | rfl | rfl | rfl <;> rfl
  · rw [decodeWrite_of_notMem hrow]
    rfl

/-! ## Codes and operations -/

/-- Exactly the primitives have no code (R74). -/
theorem encode_eq_none_iff {i : Instr} : encode i = none ↔ i.isPrimitive = true := by
  cases i <;> simp [encode, Instr.isPrimitive]

/-- A code decodes back to the operation it was written for just when that operation is well formed: on the two
fallback rows an offset with an exact row decodes to the exact row. -/
theorem decode_eq_ok_iff_wellFormed {i : Instr} {c : Code} (h : encode i = some c) :
    decode c = .ok i ↔ i.wellFormed = true := by
  cases i
  case descRead | diskRdb | diskWrb => simp [encode] at h
  all_goals obtain rfl := Option.some.inj h
  case rdZero off =>
    calc decode (.slave (readOp .w off)) = .ok (.rdZero off)
      _ ↔ decodeRead off = .rdZero off := iff_of_eq (Except.ok.injEq ..)
      _ ↔ (Instr.rdZero off).wellFormed = true := by simp [decodeRead_eq_rdZero_iff, Instr.wellFormed]
  case wrNop off v =>
    calc decode (.slave (writeOp .w off v)) = .ok (.wrNop off v)
      _ ↔ decodeWrite off v = .wrNop off v := iff_of_eq (Except.ok.injEq ..)
      _ ↔ (Instr.wrNop off v).wellFormed = true := by simp [decodeWrite_eq_wrNop_iff, Instr.wellFormed]
  all_goals exact iff_of_true rfl rfl

/-- An operation fits a selector word just when the offset in its code does. -/
theorem fitsSelector_iff_of_encode {i : Instr} {op : SlaveOp} (h : encode i = some (.slave op)) :
    i.fitsSelector = true ↔ op.off.toNat < 0x1000 := by
  cases i <;> cases h
  case rdZero | wrNop | rdBadsizeB | rdBadsizeH | rdBadsizeD | wrBadsizeB | wrBadsizeH | wrBadsizeD =>
    exact decide_eq_true_iff
  all_goals exact iff_of_true rfl (by simp [readOp, writeOp])

/-! ## Transactions -/

/-- The transaction with the write data that its direction carries: a read's is not looked at. -/
def carried (op : SlaveOp) : SlaveOp := { op with wdata := if op.we then op.wdata else 0 }

theorem decodeSlave_carried (op : SlaveOp) : decodeSlave (carried op) = decodeSlave op := by
  obtain ⟨we, size, off, v⟩ := op
  cases we <;> cases size <;> rfl

theorem encode_decodeSlave (op : SlaveOp) : encode (decodeSlave op) = some (.slave (carried op)) := by
  obtain ⟨we, size, off, v⟩ := op
  cases size
  case w =>
    cases we
    · exact encode_decodeRead off
    · exact encode_decodeWrite off v
  all_goals cases we <;> rfl

/-- Every transaction is a well-formed operation: it is what its own code decodes to. -/
theorem decodeSlave_wellFormed (op : SlaveOp) : (decodeSlave op).wellFormed = true :=
  (decode_eq_ok_iff_wellFormed (encode_decodeSlave op)).mp (congrArg Except.ok (decodeSlave_carried op))

theorem decodeSlave_fitsSelector_iff (op : SlaveOp) :
    (decodeSlave op).fitsSelector = true ↔ op.off.toNat < 0x1000 :=
  fitsSelector_iff_of_encode (op := carried op) (encode_decodeSlave op)

/-! ## Selector words -/

theorem sizeOfCode_sizeCode (size : Size) : sizeOfCode (sizeCode size) = size := by
  cases size <;> rfl

theorem sizeCode_sizeOfCode (sz : BitVec 2) : sizeCode (sizeOfCode sz) = sz := by
  revert sz
  decide

theorem packSelector_bit15 (op : SlaveOp) : (packSelector op).getLsbD 15 = false := by
  simp only [packSelector, BitVec.getLsbD_append]
  simp

theorem packSelector_we (op : SlaveOp) : (packSelector op).getLsbD 12 = op.we := by
  simp only [packSelector, BitVec.getLsbD_append]
  simp

theorem packSelector_size (op : SlaveOp) : (packSelector op).extractLsb' 13 2 = sizeCode op.size := by
  apply BitVec.eq_of_getLsbD_eq
  intro k hk
  simp only [packSelector, BitVec.getLsbD_extractLsb', BitVec.getLsbD_append]
  interval_cases k <;> simp

theorem packSelector_off (op : SlaveOp) : (packSelector op).extractLsb' 0 12 = op.off.setWidth 12 := by
  apply BitVec.eq_of_getLsbD_eq
  intro k hk
  simp only [packSelector, BitVec.getLsbD_extractLsb', BitVec.getLsbD_append]
  simp [hk]

/-- A transaction whose offset fits the 12-bit field is what its selector word unpacks to. -/
theorem unpackSelector_packSelector {op : SlaveOp} (h : op.off.toNat < 0x1000) :
    unpackSelector (packSelector op) = some (op.we, op.size, op.off) := by
  have hoff : (op.off.setWidth 12).setWidth 64 = op.off := by
    apply BitVec.eq_of_toNat_eq
    simp only [BitVec.toNat_setWidth]
    omega
  simp only [unpackSelector, packSelector_bit15, packSelector_we, packSelector_size, packSelector_off,
    sizeOfCode_sizeCode, hoff, Bool.false_eq_true, if_false]

theorem decodeSelector_packSelector {op : SlaveOp} (h : op.off.toNat < 0x1000) :
    decodeSelector (packSelector op) op.wdata = .ok (decodeSlave op) := by
  rw [decodeSelector, unpackSelector_packSelector h]

/-- The transaction of a selector word with its write data (R71). -/
def selectorOp (sel : BitVec 16) (v : Word64) : SlaveOp :=
  ⟨sel.getLsbD 12, sizeOfCode (sel.extractLsb' 13 2), (sel.extractLsb' 0 12).setWidth 64, v⟩

theorem decodeSelector_eq {sel : BitVec 16} (h : sel.getLsbD 15 = false) (v : Word64) :
    decodeSelector sel v = .ok (decodeSlave (selectorOp sel v)) := by
  simp only [decodeSelector, unpackSelector, h, Bool.false_eq_true, if_false, selectorOp]

theorem carried_selectorOp (sel : BitVec 16) (v : Word64) :
    carried (selectorOp sel v) = selectorOp sel (if sel.getLsbD 12 then v else 0) := rfl

theorem selectorOp_off_lt (sel : BitVec 16) (v : Word64) : (selectorOp sel v).off.toNat < 0x1000 := by
  have hfield : (sel.extractLsb' 0 12).toNat < 2 ^ 12 := BitVec.isLt _
  simp only [selectorOp, BitVec.toNat_setWidth]
  omega

/-- A word with bit 15 clear is its fields one after the other (R71). -/
theorem selector_fields {sel : BitVec 16} (h : sel.getLsbD 15 = false) :
    (0#1 ++ sel.extractLsb' 13 2 ++ BitVec.ofBool (sel.getLsbD 12) ++ sel.extractLsb' 0 12 : BitVec 16) = sel := by
  apply BitVec.eq_of_getLsbD_eq
  intro k hk
  simp only [BitVec.getLsbD_append, BitVec.getLsbD_extractLsb']
  obtain rfl | hlow : k = 15 ∨ k < 15 := by omega
  · exact h.symm
  · interval_cases k <;> simp

/-- A word with bit 15 clear is the word of its transaction. -/
theorem packSelector_selectorOp {sel : BitVec 16} (h : sel.getLsbD 15 = false) (v : Word64) :
    packSelector (selectorOp sel v) = sel := by
  have hoff : ((sel.extractLsb' 0 12).setWidth 64).setWidth 12 = sel.extractLsb' 0 12 :=
    BitVec.setWidth_setWidth_of_le _ (by decide)
  simp only [packSelector, selectorOp, sizeCode_sizeOfCode, hoff, selector_fields h]

theorem encodeSelector_eq_some_iff {i : Instr} {sel : BitVec 16} {v : Word64} :
    encodeSelector i = some (sel, v) ↔ ∃ op, encode i = some (.slave op) ∧ packSelector op = sel ∧ op.wdata = v := by
  unfold encodeSelector
  cases encode i with
  | none => simp
  | some c => cases c <;> simp

/-! ## The round trips -/

/-- A well-formed operation with a code is what its code decodes to. -/
theorem decode_encode {i : Instr} {c : Code} (hwf : i.wellFormed = true) (h : encode i = some c) :
    decode c = .ok i := (decode_eq_ok_iff_wellFormed h).mpr hwf

/-- A well-formed operation whose offset fits is what its selector word and write data decode to. -/
theorem decodeSelector_encodeSelector {i : Instr} {sel : BitVec 16} {v : Word64} (hwf : i.wellFormed = true)
    (hfits : i.fitsSelector = true) (h : encodeSelector i = some (sel, v)) : decodeSelector sel v = .ok i := by
  obtain ⟨op, hcode, rfl, rfl⟩ := encodeSelector_eq_some_iff.mp h
  calc decodeSelector (packSelector op) op.wdata
    _ = .ok (decodeSlave op) := decodeSelector_packSelector ((fitsSelector_iff_of_encode hcode).mp hfits)
    _ = .ok i := decode_encode hwf hcode

/-- Settles O57: a primitive alone has no code, and from its code every well-formed operation decodes. -/
theorem decodeOfEncodeIsTheOperation : Obligations.DecodeOfEncodeIsTheOperation := by
  intro i hwf
  refine ⟨fun hcoded => ?_, fun sel v hfits h => decodeSelector_encodeSelector hwf hfits h⟩
  obtain ⟨c, hc⟩ : ∃ c, encode i = some c :=
    Option.ne_none_iff_exists'.mp fun hnone => by simp [encode_eq_none_iff.mp hnone] at hcoded
  exact ⟨c, hc, decode_encode hwf hc⟩

/-- Settles O58: the word is that of its own transaction, so what it decodes to has it, and two operations with this
word and this write data are both what these decode to. -/
theorem everySelectorWordHasOneMeaning : Obligations.EverySelectorWordHasOneMeaning := by
  intro sel v hbit
  refine ⟨decodeSlave (selectorOp sel v), decodeSelector_eq hbit v, decodeSlave_wellFormed _,
    (decodeSlave_fitsSelector_iff _).mpr (selectorOp_off_lt sel v),
    encodeSelector_eq_some_iff.mpr ⟨_, encode_decodeSlave _, packSelector_selectorOp hbit _, rfl⟩,
    fun j hwf hfits hj => ?_⟩
  have hdecode := decodeSelector_encodeSelector hwf hfits hj
  rw [decodeSelector_eq hbit, ← carried_selectorOp, decodeSlave_carried] at hdecode
  exact (Except.ok.inj hdecode).symm

/-! ## What a step runs -/

theorem addrInWindow_of_offset {p : Params} {addr off : Word64} (hoff : off.toNat < p.virtioSize)
    (haddr : addr.toNat = p.virtioBase.toNat + off.toNat) : addrInWindow p addr = true := by
  simp only [addrInWindow, Bool.and_eq_true, decide_eq_true_eq]
  omega

theorem offset_of_addr {base addr off : Word64} (haddr : addr.toNat = base.toNat + off.toNat) :
    addr - base = off := by
  bv_omega

/-- A transaction in the window is decoded by its offset (R72). -/
theorem decodeTransaction_of_offset {p : Params} {addr off : Word64} (hoff : off.toNat < p.virtioSize)
    (haddr : addr.toNat = p.virtioBase.toNat + off.toNat) (we : Bool) (size : Size) (wdata : Word64) :
    decodeTransaction p we size addr wdata = .ok (decodeSlave ⟨we, size, off, wdata⟩) := by
  rw [decodeTransaction, if_pos (addrInWindow_of_offset hoff haddr), offset_of_addr haddr]

theorem step_operation {s t : State} {i : Instr} (h : fetch s = .operation i t) : step s = exec i t := by
  rw [step, h]

theorem fetch_idle {s : State} (hpc : s.pc = .idle) : fetch s = fetchEvent s s.inbox := by
  rw [fetch, hpc]

theorem fetch_phase {s : State} {i : Instr} (hidle : s.pc ≠ .idle) (hdead : s.pc ≠ .dead)
    (h : decodeSeq (seqWord s) = .ok i) : fetch s = .operation i s := by
  rw [fetch, h]
  cases hpc : s.pc
  case idle => exact absurd hpc hidle
  case dead => exact absurd hpc hdead
  all_goals rfl

theorem step_slave {s : State} {we : Bool} {size : Size} {addr wdata : Word64} {rest : List Event} {i : Instr}
    (hpc : s.pc = .idle) (hin : s.inbox = .slave we size addr wdata :: rest)
    (h : decodeTransaction s.params we size addr wdata = .ok i) : step s = exec i (takeSlave rest s) := by
  apply step_operation
  rw [fetch_idle hpc, hin, fetchEvent, h]

theorem step_port {s : State} {code : BitVec 2} {image : List Byte} {rest : List Event} {i : Instr}
    (hpc : s.pc = .idle) (hin : s.inbox = .port code image :: rest) (h : decodePort code image = .ok i) :
    step s = exec i (takeEvent rest s) := by
  apply step_operation
  rw [fetch_idle hpc, hin, fetchEvent, h]

/-- Settles O54: `fetch` finds the operation in each of the device's inputs, and `step` runs it. -/
theorem stepRunsTheDecodedOperation : Obligations.StepRunsTheDecodedOperation := by
  intro s
  refine ⟨fun we size addr off wdata rest hpc hin hoff haddr => ?_, fun _ _ _ _ _ _ hpc hin h => step_slave hpc hin h,
    fun _ _ _ _ hpc hin h => step_port hpc hin h, fun _ hidle hdead h => step_operation (fetch_phase hidle hdead h)⟩
  have hdecode := decodeTransaction_of_offset hoff haddr we size wdata
  exact ⟨hdecode, step_slave hpc hin hdecode⟩

end Sys2Proof.Machine
end

section
/-! PROOFS. The reads of port S row by row (spec/40_mmio_read.md R100 to R110), from the register map they answer and
the selector words that select them (spec/30_encoding.md R71, R72), and the wrong-size accesses under both values of
BADSIZE_POLICY (R111; spec/41_mmio_write.md R128; spec/60_exceptions.md R212, R213). -/

namespace Sys2Proof.Machine

/-! ## Selector words by their four high bits -/

theorem extractLsb'_offset (sel : BitVec 16) : (sel.extractLsb' 0 12).setWidth 64 = (sel &&& 0x0FFF).setWidth 64 := by
  have hmask : (sel &&& 0x0FFF).toNat = sel.toNat % 2 ^ 12 := Nat.and_two_pow_sub_one_eq_mod _ 12
  apply BitVec.eq_of_toNat_eq
  rw [BitVec.toNat_setWidth, BitVec.toNat_setWidth, hmask, BitVec.extractLsb'_toNat, Nat.shiftRight_zero]

/-- The four high bits of a selector word are bit 15, which is 0, the size and the direction (R71). -/
theorem selector_high {sel : BitVec 16} {we : Bool} {size : Size} (h : sel &&& 0xF000 = packSelector ⟨we, size, 0, 0⟩) :
    sel.getLsbD 15 = false ∧ sel.getLsbD 12 = we ∧ sel.extractLsb' 13 2 = sizeCode size := by
  have hbit := packSelector_bit15 ⟨we, size, 0, 0⟩
  have hwe := packSelector_we ⟨we, size, 0, 0⟩
  have hsize := packSelector_size ⟨we, size, 0, 0⟩
  rw [← h, BitVec.getLsbD_and] at hbit hwe
  rw [← h, BitVec.extractLsb'_and, (by decide : (0xF000 : BitVec 16).extractLsb' 13 2 = BitVec.allOnes 2),
    BitVec.and_allOnes] at hsize
  exact ⟨by simpa using hbit, by simpa using hwe, hsize⟩

/-- A row with mask 0xF000 takes its words at every offset (R72). -/
theorem decodeSelector_of_high {sel : BitVec 16} {we : Bool} {size : Size}
    (h : sel &&& 0xF000 = packSelector ⟨we, size, 0, 0⟩) (v : Word64) :
    decodeSelector sel v = .ok (decodeSlave ⟨we, size, (sel &&& 0x0FFF).setWidth 64, v⟩) := by
  obtain ⟨hbit, hwe, hsize⟩ := selector_high h
  rw [decodeSelector_eq hbit, selectorOp, hwe, hsize, sizeOfCode_sizeCode, extractLsb'_offset]

theorem decodeSelector_rdZero {sel : BitVec 16} (h : sel &&& 0xF000 = 0x4000)
    (hrow : (sel &&& 0x0FFF).setWidth 64 ∉ readSet) (v : Word64) :
    decodeSelector sel v = .ok (.rdZero ((sel &&& 0x0FFF).setWidth 64)) := by
  rw [decodeSelector_of_high (we := false) (size := .w) h, decodeSlave, decodeRead_of_notMem hrow]

theorem decodeSelector_wrNop {sel : BitVec 16} (h : sel &&& 0xF000 = 0x5000)
    (hrow : (sel &&& 0x0FFF).setWidth 64 ∉ writeSet) (v : Word64) :
    decodeSelector sel v = .ok (.wrNop ((sel &&& 0x0FFF).setWidth 64) v) := by
  rw [decodeSelector_of_high (we := true) (size := .w) h, decodeSlave, decodeWrite_of_notMem hrow]

/-! ## The 4-byte reads -/

/-- Settles O6: each read answers the register map at its offset, where the map has a constant; the read words are
closed words of the table, and the offset of each write word has no exact write row. -/
theorem constantReadsAnswerTheirConstants : Obligations.ConstantReadsAnswerTheirConstants :=
  ⟨fun _ hpc =>
    ⟨exec_decodeRead 0x000 hpc, exec_decodeRead 0x004 hpc, exec_decodeRead 0x008 hpc, exec_decodeRead 0x00C hpc,
      exec_decodeRead 0x010 hpc, exec_decodeRead 0x034 hpc⟩,
   fun v =>
    ⟨rfl, decodeSelector_wrNop (sel := 0x5000) (by decide) (by decide) v,
      rfl, decodeSelector_wrNop (sel := 0x5004) (by decide) (by decide) v,
      rfl, decodeSelector_wrNop (sel := 0x5008) (by decide) (by decide) v,
      rfl, decodeSelector_wrNop (sel := 0x500C) (by decide) (by decide) v,
      rfl, rfl, decodeSelector_wrNop (sel := 0x5034) (by decide) (by decide) v⟩⟩

/-- Settles O7: `respond` zero-extends the stored register that each read hands it. -/
theorem storedReadsAnswerTheRegister : Obligations.StoredReadsAnswerTheRegister :=
  fun _ hpc => ⟨exec_rdDrvfeat_idle hpc, exec_rdQpfn_idle hpc, exec_rdStatus_idle hpc⟩

/-- Settles O8: an offset outside the read set passes every exact row, from a transaction and from a selector word. -/
theorem readsElsewhereAnswerZero : Obligations.ReadsElsewhereAnswerZero := by
  intro off hrow
  refine ⟨decodeRead_of_notMem hrow, fun sel v hsel hoff => ?_, fun s hpc => atPort_idle hpc⟩
  subst hoff
  exact decodeSelector_rdZero hsel hrow v

/-! ## The wrong-size accesses -/

theorem badsizeRead_fault {s : State} (h : s.params.badsizePolicy = .fault) (off : Word64) :
    badsizeRead off s = raiseSizeFault .load (windowAddr s.params off) s := by
  rw [badsizeRead, h]

theorem badsizeRead_zero {s : State} (h : s.params.badsizePolicy = .zero) (off : Word64) :
    badsizeRead off s = respond 0 s := by
  rw [badsizeRead, h]

theorem badsizeWrite_fault {s : State} (h : s.params.badsizePolicy = .fault) (off : Word64) :
    badsizeWrite off s = raiseSizeFault .store (windowAddr s.params off) s := by
  rw [badsizeWrite, h]

theorem badsizeWrite_zero {s : State} (h : s.params.badsizePolicy = .zero) (off : Word64) :
    badsizeWrite off s = respondDone s := by
  rw [badsizeWrite, h]

theorem exec_badsizeRead {s : State} (hpc : s.pc = .idle) {off : Word64} {i : Instr}
    (hi : i ∈ [Instr.rdBadsizeB off, .rdBadsizeH off, .rdBadsizeD off]) : exec i s = .next (badsizeRead off s) := by
  simp only [List.mem_cons, List.not_mem_nil, or_false] at hi
  rcases hi with rfl | rfl | rfl <;> exact atPort_idle hpc

theorem exec_badsizeWrite {s : State} (hpc : s.pc = .idle) {off wdata : Word64} {i : Instr}
    (hi : i ∈ [Instr.wrBadsizeB off wdata, .wrBadsizeH off wdata, .wrBadsizeD off wdata]) :
    exec i s = .next (badsizeWrite off s) := by
  simp only [List.mem_cons, List.not_mem_nil, or_false] at hi
  rcases hi with rfl | rfl | rfl <;> exact atPort_idle hpc

/-- Settles O10: the three sizes of a direction run one operation, which looks at the policy only; a fault carries the
address of the transaction and the code of its kind. -/
theorem wrongSizeAccessesFaultOrAreIgnored : Obligations.WrongSizeAccessesFaultOrAreIgnored := by
  intro off wdata s hpc
  refine ⟨⟨rfl, rfl, rfl, rfl, rfl, rfl⟩, fun hpolicy => ⟨fun i hi => ?_, fun i hi => ?_⟩,
    fun hpolicy => ⟨fun i hi => ?_, fun i hi => ?_⟩⟩
  · rw [exec_badsizeRead hpc hi, badsizeRead_fault hpolicy]
    rfl
  · rw [exec_badsizeWrite hpc hi, badsizeWrite_fault hpolicy]
    rfl
  · rw [exec_badsizeRead hpc hi, badsizeRead_zero hpolicy]
    rfl
  · rw [exec_badsizeWrite hpc hi, badsizeWrite_zero hpolicy]
    rfl

end Sys2Proof.Machine
end

section
/-! PROOFS. The writes of port S row by row (spec/41_mmio_write.md R121 to R130): the plain register writes, the two
feature offsets, the offsets without a row, and the pending bit that a notify leaves to the query (R126, R140, R141). -/

namespace Sys2Proof.Machine

/-! ## The 4-byte writes other than the notify -/

/-- Settles O11: in IDLE each write is served, with its one register stored and the answer given. -/
theorem registerWritesStoreTheLowWord : Obligations.RegisterWritesStoreTheLowWord :=
  fun _ _ hpc => ⟨atPort_idle hpc, atPort_idle hpc, atPort_idle hpc, atPort_idle hpc, atPort_idle hpc⟩

/-- The feature register with a write that DRVFEAT_WR_OFFSETS allows or not (R121, R130). -/
theorem drvfeat_write (allowed : Bool) (v : Word32) (s : State) :
    respondDone (if allowed then { s with drvfeat := v } else s) =
      { s with drvfeat := if allowed then v else s.drvfeat, answer := .done } := by
  cases allowed <;> rfl

/-- Settles O12: both words are closed words of the table, and each write looks at its own setting only. -/
theorem featureWritesFollowTheWriteOffsets : Obligations.FeatureWritesFollowTheWriteOffsets :=
  fun v s hpc => ⟨rfl, rfl,
    (atPort_idle hpc).trans (congrArg _ (drvfeat_write s.params.drvfeatAt010 (writeValue v) s)),
    (atPort_idle hpc).trans (congrArg _ (drvfeat_write s.params.drvfeatAt020 (writeValue v) s))⟩

/-- Settles O13: an offset outside the write set passes every exact row, from a transaction and from a selector
word. -/
theorem writesElsewhereChangeNothing : Obligations.WritesElsewhereChangeNothing := by
  intro off v hrow
  refine ⟨decodeWrite_of_notMem hrow v, fun sel hsel hoff => ?_, fun s hpc => atPort_idle hpc⟩
  subst hoff
  exact decodeSelector_wrNop hsel hrow v

/-! ## The pending bit after a notify -/

theorem exec_irqQuery_idle {s : State} (h : s.pc = .idle) :
    exec .irqQuery s = .next { s with notifyValid := false, answer := .query s.notifyValid } :=
  atPort_idle h

/-- The register update is done before the transfer, and no phase touches it (R126). -/
theorem transfer_notifyValid (v : Word32) (s : State) :
    (transfer (startTransfer v s)).notifyValid =
      (s.notifyValid || decide (s.params.notifySentinel ≠ some v)) := by
  rw [(transfer_outside (startTransfer v s)).notifyValid, ← marksPending_eq_decide]
  rfl

/-- Settles O16: the first query clears the bit that it answers and stays in IDLE, so the second answers 0. -/
theorem pendingIsReportedOncePerNotify : Obligations.PendingIsReportedOncePerNotify := by
  intro v s t h hpc
  obtain ⟨-, -, ht⟩ := execWrNotify_next h
  exact ⟨ht ▸ transfer_notifyValid (writeValue v) s, _, _, exec_irqQuery_idle hpc, rfl, exec_irqQuery_idle hpc, rfl⟩

end Sys2Proof.Machine
end

section
/-! PROOFS. A notify of a configured queue always runs to one of three ends (spec/44_dma_transfer.md R160, R172;
spec/41_mmio_write.md R126), on any bus and from any guest memory. A phase leads from a state that `StandsAt` it to one
that stands at the next phase or has `Ended`. -/

namespace Sys2Proof.Machine

/-! ## The ends of a transfer -/

/-- The three ends of a transfer from `s` (R172): completion; a BusFault, with the id taken only by a store (that of
T_USED); a DiskAbort, before T_ID. -/
inductive Ended (s t : State) : Prop
  | completed (hpc : t.pc = .idle) (hanswer : t.answer = .done) (hid : t.id = nextId s.params s.id)
  | faulted (kind : AccessKind) (a : Addr) (hpc : t.pc = .idle)
      (hanswer : t.answer = .busFault kind a (faultCode s.params kind))
      (hid : t.id = s.id ∨ (kind = .store ∧ t.id = nextId s.params s.id))
  | aborted (off : Nat) (hpc : t.pc = .dead) (hanswer : t.answer = .noAnswer off) (hoff : s.disk.length ≤ off)
      (hid : t.id = s.id)

/-- A transfer from `s` stands at phase `p` in `t`, with what the ends speak of as in `s`. -/
structure StandsAt (p : Phase) (s t : State) : Prop where
  pc : t.pc = p
  params : t.params = s.params
  diskLength : t.disk.length = s.disk.length
  id : t.id = idAt s p

/-- A transfer from `s` stands at phase `p`, or it has ended. -/
def EndsOrStandsAt (p : Phase) (s t : State) : Prop := StandsAt p s t ∨ Ended s t

theorem Ended.settled {s t : State} (h : Ended s t) : Safety.Settled t := by
  cases h with
  | completed hpc => exact .inl hpc
  | faulted _ _ hpc => exact .inl hpc
  | aborted _ hpc => exact .inr hpc

theorem Ended.pc_ne {s t : State} (h : Ended s t) {p : Phase} (hidle : p ≠ .idle) (hdead : p ≠ .dead) : t.pc ≠ p := by
  rcases h.settled with hpc | hpc <;> rw [hpc]
  · exact hidle.symm
  · exact hdead.symm

section

variable {p q : Phase} {s t : State}

theorem StandsAt.accessed (h : StandsAt p s t) (acc : BusAccess) (m : Memory) : StandsAt p s (accessed acc m t) :=
  ⟨h.pc, h.params, h.diskLength, h.id⟩

/-- Before T_USED the id is still that of the start. -/
theorem StandsAt.raiseBusFault (h : StandsAt p s t) (hp : p ≠ .used) (kind : AccessKind) (a : Addr) :
    Ended s (raiseBusFault kind a t) :=
  .faulted kind a rfl (by rw [← h.params]; rfl) (.inl (h.id.trans (idAt_of_ne s hp)))

theorem StandsAt.raiseDiskAbort (h : StandsAt p s t) (hp : p ≠ .used) {off : Nat} (hoff : t.disk.length ≤ off) :
    Ended s (raiseDiskAbort off t) :=
  .aborted off rfl rfl (h.diskLength ▸ hoff) (h.id.trans (idAt_of_ne s hp))

/-- The sequencer goes on to a phase before T_USED. -/
theorem StandsAt.goes_on (h : StandsAt p s t) (hp : p ≠ .used) (hq : q ≠ .used) (x : Xfer) :
    StandsAt q s { t with pc := q, xfer := x } :=
  ⟨rfl, h.params, h.diskLength, h.id.trans ((idAt_of_ne s hp).trans (idAt_of_ne s hq).symm)⟩

/-! ## The phases before the copy -/

theorem memRead_ends (h : StandsAt p s t) (hp : p ≠ .used) {a : Addr} {n : Size} {rest : List Byte → State → State}
    (hrest : ∀ bytes u, StandsAt p s u → EndsOrStandsAt q s (rest bytes u)) :
    EndsOrStandsAt q s (memRead t a n rest) :=
  memRead_cases t a n rest (fun bytes _ _ => hrest bytes _ (h.accessed _ _))
    (fun _ _ => .inr ((h.accessed _ _).raiseBusFault hp .load a))

theorem descRead_ends (h : StandsAt p s t) (hp : p ≠ .used) {a : Addr} {rest : Desc → State → State}
    (hrest : ∀ d u, StandsAt p s u → EndsOrStandsAt q s (rest d u)) : EndsOrStandsAt q s (descRead t a rest) :=
  descRead_cases (fun _ _ _ hu => hu.accessed _ _) (fun _ a hu => .inr (hu.raiseBusFault hp .load a)) rest hrest a t h

theorem phaseBase_ends (h : StandsAt .base s t) : EndsOrStandsAt .fill s (phaseBase t) :=
  .inl (h.goes_on (by decide) (by decide) _)

theorem phaseFill_ends (h : StandsAt .fill s t) : EndsOrStandsAt .head s (phaseFill t) :=
  memRead_ends h (by decide) fun _ _ hu => .inl (hu.goes_on (by decide) (by decide) _)

theorem phaseHead_ends (h : StandsAt .head s t) : EndsOrStandsAt .desc0 s (phaseHead t) :=
  memRead_ends h (by decide) fun _ _ hu => .inl (hu.goes_on (by decide) (by decide) _)

theorem phaseDesc0_ends (h : StandsAt .desc0 s t) : EndsOrStandsAt .desc1 s (phaseDesc0 t) :=
  descRead_ends h (by decide) fun _ _ hu => .inl (hu.goes_on (by decide) (by decide) _)

theorem phaseDesc1_ends (h : StandsAt .desc1 s t) : EndsOrStandsAt .sector s (phaseDesc1 t) :=
  descRead_ends h (by decide) fun _ _ hu => .inl (hu.goes_on (by decide) (by decide) _)

theorem phaseSector_ends (h : StandsAt .sector s t) : EndsOrStandsAt .copy s (phaseSector t) :=
  memRead_ends h (by decide) fun _ _ hu => .inl (hu.goes_on (by decide) (by decide) _)

/-! ## The copy -/

/-- What one step of the copy at `t` leaves: a copy with fewer bytes left, the next phase, or an end. -/
def CopyGoesOn (s t u : State) : Prop :=
  (StandsAt .copy s u ∧ bytesLeft u.xfer < bytesLeft t.xfer) ∨ EndsOrStandsAt .id s u

theorem CopyGoesOn.of_ended {u : State} (h : Ended s u) : CopyGoesOn s t u := .inr (.inr h)

/-- One byte moved, in a state that has the transient values of `t`. -/
theorem CopyGoesOn.nextByte {u : State} (hleft : copyLeft t.xfer = true) (hu : StandsAt .copy s u)
    (hxfer : u.xfer = t.xfer) : CopyGoesOn s t (nextByte u) := by
  rw [← hxfer] at hleft
  exact .inl ⟨⟨hu.pc, hu.params, hu.diskLength, hu.id⟩, hxfer ▸ bytesLeft_nextByte_lt hleft⟩

/-- With no byte left the phase ends. -/
theorem CopyGoesOn.done (h : StandsAt .copy s t) : CopyGoesOn s t { t with pc := .id } :=
  .inr (.inl (h.goes_on (by decide) (by decide) t.xfer))

theorem copyG2d_goes_on (h : StandsAt .copy s t) : CopyGoesOn s t (copyG2d t) := by
  unfold copyG2d
  split
  next hleft =>
    refine memRead_cases (P := CopyGoesOn s t) t _ _ _ (fun _ m _ => ?_)
      (fun _ _ => .of_ended ((h.accessed _ _).raiseBusFault (by decide) _ _))
    have hread := h.accessed (.load (bufferAddr t.xfer.d1 t.xfer.i) .b) m
    exact diskWrite_cases _ _ _ _
      (fun _ => .nextByte hleft ⟨hread.pc, hread.params, List.length_set.trans hread.diskLength, hread.id⟩ rfl)
      (fun hoff => .of_ended (hread.raiseDiskAbort (by decide) hoff))
  next => exact .done h

theorem copyD2g_goes_on (h : StandsAt .copy s t) : CopyGoesOn s t (copyD2g t) := by
  unfold copyD2g
  split
  next hleft =>
    refine diskRead_cases (P := CopyGoesOn s t) t _ _ (fun _ _ => ?_)
      (fun hoff => .of_ended (h.raiseDiskAbort (by decide) hoff))
    exact memWrite_cases t _ _ _ (fun _ _ => .nextByte hleft (h.accessed _ _) rfl)
      (fun _ _ => .of_ended ((h.accessed _ _).raiseBusFault (by decide) _ _))
  next => exact .done h

theorem copyStep_goes_on (h : StandsAt .copy s t) : CopyGoesOn s t (copyStep t) := by
  unfold copyStep
  split
  · exact copyD2g_goes_on h
  · exact copyG2d_goes_on h

theorem EndsOrStandsAt.pc_ne_copy (h : EndsOrStandsAt .id s t) : t.pc ≠ .copy := by
  rcases h with h | h
  · simp [h.pc]
  · exact h.pc_ne (by decide) (by decide)

/-- With one step more than bytes are left the copy comes to its end. -/
theorem copyLoop_ends {n : Nat} {t : State} (h : StandsAt .copy s t) (hn : bytesLeft t.xfer < n) :
    EndsOrStandsAt .id s (copyLoop n t) := by
  induction n generalizing t with
  | zero => omega
  | succ n ih =>
    rw [copyLoop, if_pos h.pc]
    rcases copyStep_goes_on h with ⟨hcopy, hlt⟩ | hend
    · exact ih hcopy (by omega)
    · rwa [copyLoop_of_pc_ne hend.pc_ne_copy]

theorem phaseCopy_ends (h : StandsAt .copy s t) : EndsOrStandsAt .id s (phaseCopy t) :=
  copyLoop_ends h (Nat.lt_succ_of_le (Nat.sub_le _ _))

/-! ## The phases after the copy, and the whole transfer -/

theorem phaseId_ends (h : StandsAt .id s t) : EndsOrStandsAt .used s (phaseId t) :=
  .inl ⟨rfl, h.params, h.diskLength, congrArg₂ nextId h.params h.id⟩

/-- T_USED completes the transfer, or its store is refused with the id taken. -/
theorem phaseUsed_ends (h : StandsAt .used s t) : Ended s (phaseUsed t) :=
  memWrite_cases t _ _ _ (fun _ _ => .completed rfl rfl h.id)
    (fun _ _ => .faulted .store _ rfl (by rw [← h.params]; rfl) (.inr ⟨rfl, h.id⟩))

/-- A phase is run from a state that stands at it; a transfer that has ended stays as it is. -/
theorem thenPhase_of_ends {P : State → Prop} {f : State → State} (hp : p ≠ .idle ∧ p ≠ .dead)
    (hf : ∀ {t}, StandsAt p s t → P (f t)) (hended : ∀ {t}, Ended s t → P t) (h : EndsOrStandsAt p s t) :
    P (thenPhase p f t) := by
  unfold thenPhase
  rcases h with h | h
  · rw [if_pos h.pc]
    exact hf h
  · rw [if_neg (h.pc_ne hp.1 hp.2)]
    exact hended h

/-- A phase of the middle of a transfer. -/
theorem EndsOrStandsAt.thenPhase {f : State → State} (hf : ∀ {t}, StandsAt p s t → EndsOrStandsAt q s (f t))
    (h : EndsOrStandsAt p s t) (hp : p ≠ .idle ∧ p ≠ .dead := by decide) :
    EndsOrStandsAt q s (thenPhase p f t) :=
  thenPhase_of_ends hp hf .inr h

/-- A transfer from T_BASE comes to an end (R160, R172). -/
theorem transfer_ended (h : StandsAt .base s t) : Ended s (transfer t) := by
  have hcopy : EndsOrStandsAt .copy s _ :=
    .thenPhase phaseSector_ends <| .thenPhase phaseDesc1_ends <| .thenPhase phaseDesc0_ends <|
    .thenPhase phaseHead_ends <| .thenPhase phaseFill_ends <| .thenPhase phaseBase_ends (.inl h)
  have hused : EndsOrStandsAt .used s _ := .thenPhase phaseId_ends <| .thenPhase phaseCopy_ends hcopy
  exact thenPhase_of_ends (by decide) phaseUsed_ends id hused

end

/-! ## The notify -/

theorem queueConfigured_iff {s : State} : queueConfigured s = true ↔ s.qpfn ≠ 0 ∧ s.pgsz ≠ 0 := by
  simp [queueConfigured]

/-- A notify of a configured queue in IDLE is served: its next state is the end of the transfer (R126, R261). -/
theorem exec_wrNotify {s : State} (hpc : s.pc = .idle) (hqpfn : s.qpfn ≠ 0) (hpgsz : s.pgsz ≠ 0) (v : Word64) :
    exec (.wrNotify v) s = .next (transfer (startTransfer (writeValue v) s)) :=
  execWrNotify_of_configured hpc (queueConfigured_iff.mpr ⟨hqpfn, hpgsz⟩)

/-- Settles O39: the transfer starts at T_BASE with the id and the disk of `s`, and the phases touch nothing outside
the transfer. -/
theorem transferEndsInOneOfThreeWays : Obligations.TransferEndsInOneOfThreeWays := by
  intro v s hpc hqpfn hpgsz
  have same := transfer_outside (startTransfer (writeValue v) s)
  refine ⟨_, exec_wrNotify hpc hqpfn hpgsz v, same.notifyValue, transfer_notifyValid _ s, same.drvfeat, same.pgsz,
    same.qsel, same.qnum, same.qpfn, same.status, same.params, same.regions, same.inbox, same.running,
    same.diskLength, ?_⟩
  have hstart : StandsAt .base s (startTransfer (writeValue v) s) := ⟨rfl, rfl, rfl, rfl⟩
  cases transfer_ended hstart with
  | completed hidle hdone hid => exact .inl ⟨hidle, hdone, hid⟩
  | faulted kind a hidle hfault hid => exact .inr (.inl ⟨kind, a, hidle, hfault, hid⟩)
  | aborted off hdead habort hoff hid => exact .inr (.inr ⟨off, hdead, habort, hoff, hid⟩)

end Sys2Proof.Machine
end

section
/-! PROOFS. The transfer of a ready request (spec/44_dma_transfer.md R160 to R172; spec/20_memory.md R45): the chain is
read as `Safety` computes it from the state at the notify (`inTransfer`), the copy is followed byte by byte in both
directions (`copyingFrom`), and T_ID and T_USED complete it (R190, R191). -/

namespace Sys2Proof.Machine

open Sys2Proof.Safety

/-! ## The chain -/

/-- A transfer from `s` at phase `p` with the transient values `x`: the register update of the notify write is done and
the accesses stand on the record, nothing else has changed (R126). -/
def inTransfer (v : Word64) (s : State) (p : Phase) (x : Xfer) (accesses : List BusAccess) : State :=
  { afterChain v accesses s with pc := p, xfer := x, answer := .none }

/-- The transient values at the first byte of the copy (R161 to R167). -/
def chainXfer (s : State) : Xfer where
  base := descTableAddress s
  avail := availAddr (descTableAddress s)
  used := usedAddr (descTableAddress s)
  fill := chainFill s
  slot := slotOf (chainFill s)
  head := chainHead s
  d0 := chainD0 s
  d1 := chainD1 s
  sector := chainSector s
  i := 0

section

variable {s : State} {v : Word64} {p : Phase} {x : Xfer} {accesses : List BusAccess}

theorem serves_inTransfer (a : Addr) (n : Nat) : serves (inTransfer v s p x accesses) a n = serves s a n :=
  serves_congr rfl rfl a n

theorem servesPlan_inTransfer (plan : List Size) (a : Addr) :
    servesPlan (inTransfer v s p x accesses) plan a = servesPlan s plan a :=
  servesPlan_congr (s := s) (t := inTransfer v s p x accesses) rfl rfl plan a

theorem memRead_inTransfer {a : Addr} {n : Size} (h : serves s a n.bytes = true) (rest : List Byte → State → State) :
    memRead (inTransfer v s p x accesses) a n rest =
      rest (readBytes s.mem a n.bytes) (inTransfer v s p x (accesses ++ [.load a n])) := by
  rw [memRead_serves ((serves_inTransfer _ _).trans h)]
  simp [inTransfer, afterChain, setNotify, accessed]

theorem descRead_inTransfer {a : Addr} (h16 : planBytes s.params.descReadPlan = 16)
    (h : servesPlan s s.params.descReadPlan a = true) (rest : Desc → State → State) :
    descRead (inTransfer v s p x accesses) a rest =
      rest (descOfBytes (readBytes s.mem a 16))
        (inTransfer v s p x (accesses ++ planAccesses s.params.descReadPlan a)) := by
  rw [descRead_serves (s := inTransfer v s p x accesses) h16 ((servesPlan_inTransfer _ _).trans h)]
  simp [inTransfer, afterChain, setNotify]

theorem phaseBase_startTransfer (v : Word64) (s : State) :
    phaseBase (startTransfer (writeValue v) s) = inTransfer v s .fill
      { s.xfer with
        base := descTableAddress s, avail := availAddr (descTableAddress s), used := usedAddr (descTableAddress s) }
      [] := rfl

theorem phaseFill_inTransfer (havail : x.avail = availAddr (descTableAddress s))
    (h : serves s (fillAddr s.params (availAddr (descTableAddress s))) 2 = true) :
    phaseFill (inTransfer v s .fill x accesses) =
      inTransfer v s .head { x with fill := chainFill s, slot := slotOf (chainFill s) }
        (accesses ++ [.load (fillAddr s.params (availAddr (descTableAddress s))) .h]) := by
  have haddr : fillAddr s.params x.avail = fillAddr s.params (availAddr (descTableAddress s)) := by rw [havail]
  rw [← haddr] at h
  refine (memRead_inTransfer (n := .h) h _).trans ?_
  rw [haddr]
  rfl

theorem phaseHead_inTransfer (havail : x.avail = availAddr (descTableAddress s))
    (hslot : x.slot = slotOf (chainFill s)) (h : serves s (chainSlotAddr s) 2 = true) :
    phaseHead (inTransfer v s .head x accesses) =
      inTransfer v s .desc0 { x with head := chainHead s } (accesses ++ [.load (chainSlotAddr s) .h]) := by
  have haddr : slotAddr s.params x.avail x.slot = chainSlotAddr s := by rw [havail, hslot, chainSlotAddr]
  rw [← haddr] at h
  refine (memRead_inTransfer (n := .h) h _).trans ?_
  rw [haddr]
  rfl

theorem phaseDesc0_inTransfer (hbase : x.base = descTableAddress s) (hhead : x.head = chainHead s)
    (h16 : planBytes s.params.descReadPlan = 16)
    (h : servesPlan s s.params.descReadPlan (chainD0Addr s) = true) :
    phaseDesc0 (inTransfer v s .desc0 x accesses) =
      inTransfer v s .desc1 { x with d0 := chainD0 s }
        (accesses ++ planAccesses s.params.descReadPlan (chainD0Addr s)) := by
  have haddr : descAddr x.base x.head = chainD0Addr s := by rw [hbase, hhead, chainD0Addr]
  rw [← haddr] at h
  refine (descRead_inTransfer h16 h _).trans ?_
  rw [haddr]
  rfl

theorem phaseDesc1_inTransfer (hbase : x.base = descTableAddress s) (hd0 : x.d0 = chainD0 s)
    (h16 : planBytes s.params.descReadPlan = 16)
    (h : servesPlan s s.params.descReadPlan (chainD1Addr s) = true) :
    phaseDesc1 (inTransfer v s .desc1 x accesses) =
      inTransfer v s .sector { x with d1 := chainD1 s }
        (accesses ++ planAccesses s.params.descReadPlan (chainD1Addr s)) := by
  have haddr : descAddr x.base x.d0.next = chainD1Addr s := by rw [hbase, hd0, chainD1Addr]
  rw [← haddr] at h
  refine (descRead_inTransfer h16 h _).trans ?_
  rw [haddr]
  rfl

theorem phaseSector_inTransfer (hd0 : x.d0 = chainD0 s) (h : serves s (sectorAddr (chainD0 s)) 8 = true) :
    phaseSector (inTransfer v s .sector x accesses) =
      inTransfer v s .copy { x with sector := chainSector s, i := 0 }
        (accesses ++ [.load (sectorAddr (chainD0 s)) .d]) := by
  have haddr : sectorAddr x.d0 = sectorAddr (chainD0 s) := by rw [hd0]
  rw [← haddr] at h
  refine (memRead_inTransfer (n := .d) h _).trans ?_
  rw [haddr]
  rfl

theorem thenPhase_inTransfer (f : State → State) :
    thenPhase p f (inTransfer v s p x accesses) = f (inTransfer v s p x accesses) := if_pos rfl

theorem thenPhase_startTransfer (f : State → State) :
    thenPhase .base f (startTransfer (writeValue v) s) = f (startTransfer (writeValue v) s) := if_pos rfl

/-- A ready request reaches T_COPY with the chain that `Safety` reads from the state at the notify (R252). -/
theorem transfer_of_ready (h : Ready s) (v : Word64) :
    transfer (startTransfer (writeValue v) s) = thenPhase .used phaseUsed (thenPhase .id phaseId
      (phaseCopy (inTransfer v s .copy (chainXfer s) (chainAccesses s)))) := by
  obtain ⟨-, -, -, h16, hfill, hslot, hd0, hd1, hsector⟩ := h
  rw [transfer, thenPhase_startTransfer, phaseBase_startTransfer, thenPhase_inTransfer,
    phaseFill_inTransfer _ hfill, thenPhase_inTransfer, phaseHead_inTransfer _ _ hslot, thenPhase_inTransfer,
    phaseDesc0_inTransfer _ _ h16 hd0, thenPhase_inTransfer, phaseDesc1_inTransfer _ _ h16 hd1,
    thenPhase_inTransfer, phaseSector_inTransfer _ hsector, thenPhase_inTransfer]
  all_goals rfl

end

/-! ## Bytes in order -/

theorem writeBytes_append (m : Memory) (a : Addr) (bytes more : List Byte) :
    writeBytes m a (bytes ++ more) = writeBytes (writeBytes m a bytes) (a + BitVec.ofNat 64 bytes.length) more := by
  induction bytes generalizing m a with
  | nil => simp [writeBytes]
  | cons b rest ih => rw [List.cons_append, writeBytes, writeBytes, ih, List.length_cons, ← addr_succ_add]; rfl

theorem bufferStores_append (a : Addr) (bytes more : List Byte) :
    bufferStores a (bytes ++ more) =
      bufferStores a bytes ++ bufferStores (a + BitVec.ofNat 64 bytes.length) more := by
  induction bytes generalizing a with
  | nil => simp [bufferStores]
  | cons b rest ih => rw [List.cons_append, bufferStores, bufferStores, ih, List.length_cons, ← addr_succ_add]; rfl

theorem bufferLoads_succ (a : Addr) (n : Nat) :
    bufferLoads a (n + 1) = bufferLoads a n ++ [.load (a + BitVec.ofNat 64 n) .b] := by
  induction n generalizing a with
  | zero => simp [bufferLoads]
  | succ n ih => rw [bufferLoads, ih, bufferLoads, ← addr_succ_add]; rfl

theorem readBytes_succ (m : Memory) (a : Addr) (n : Nat) :
    readBytes m a (n + 1) = readBytes m a n ++ [readByte m (a + BitVec.ofNat 64 n).toNat] := readBytes_add m a n 1

section

variable {s : State} {k : Nat}

theorem diskSlice_zero (s : State) : diskSlice s 0 = [] := List.take_zero

theorem diskSlice_length (h : k = 0 ∨ chainDiskOffset s + k ≤ s.disk.length) : (diskSlice s k).length = k := by
  rw [diskSlice, List.length_take, List.length_drop]
  omega

theorem diskSlice_succ {b : Byte} (hb : s.disk[chainDiskOffset s + k]? = some b) :
    diskSlice s (k + 1) = diskSlice s k ++ [b] := by
  rw [diskSlice, List.take_add_one, List.getElem?_drop, hb]
  rfl

theorem diskOverlay_nil (s : State) : diskOverlay s [] = s.disk := by simp [diskOverlay]

theorem diskOverlay_length {bytes : List Byte}
    (h : bytes.length = 0 ∨ chainDiskOffset s + bytes.length ≤ s.disk.length) :
    (diskOverlay s bytes).length = s.disk.length := by
  simp only [diskOverlay, List.length_append, List.length_take, List.length_drop]
  omega

/-- One byte more over the disk is the next byte set. -/
theorem diskOverlay_snoc {bytes : List Byte} (h : chainDiskOffset s + bytes.length < s.disk.length) (b : Byte) :
    diskOverlay s (bytes ++ [b]) = (diskOverlay s bytes).set (chainDiskOffset s + bytes.length) b := by
  have hfront : (s.disk.take (chainDiskOffset s) ++ bytes).length = chainDiskOffset s + bytes.length := by
    rw [List.length_append, List.length_take]
    omega
  rw [diskOverlay, diskOverlay, List.set_append_right _ _ hfront.le, hfront, Nat.sub_self,
    List.drop_eq_getElem_cons h, List.set_cons_zero, List.length_append, List.length_singleton]
  simp [Nat.add_assoc]

/-! ## The copy, byte by byte -/

/-- The copy of a ready request at byte `k`, with the guest memory, the disk and the accesses of the bytes before. -/
def copyingFrom (v : Word64) (s : State) (k : Nat) (m : Memory) (disk : List Byte) (moves : List BusAccess) : State :=
  { inTransfer v s .copy { chainXfer s with i := BitVec.ofNat 33 k } (chainAccesses s ++ moves) with
    mem := m, disk := disk }

/-- Disk to guest: bytes 0 to k-1 are in guest memory (R169). -/
def copiedToGuest (v : Word64) (s : State) (k : Nat) : State :=
  copyingFrom v s k (writeBytes s.mem (chainD1 s).address (diskSlice s k)) s.disk
    (bufferStores (chainD1 s).address (diskSlice s k))

/-- Guest to disk: bytes 0 to k-1 are on the disk (R168). -/
def copiedToDisk (v : Word64) (s : State) (k : Nat) : State :=
  copyingFrom v s k s.mem (diskOverlay s (readBytes s.mem (chainD1 s).address k))
    (bufferLoads (chainD1 s).address k)

theorem copiedToGuest_zero (v : Word64) (s : State) :
    copiedToGuest v s 0 = inTransfer v s .copy (chainXfer s) (chainAccesses s) := by
  rw [copiedToGuest, diskSlice_zero, copyingFrom, bufferStores, List.append_nil]
  rfl

theorem copiedToDisk_zero (v : Word64) (s : State) :
    copiedToDisk v s 0 = inTransfer v s .copy (chainXfer s) (chainAccesses s) := by
  rw [copiedToDisk, readBytes, diskOverlay_nil, copyingFrom, bufferLoads, List.append_nil]
  rfl

variable {v : Word64} {m : Memory} {disk : List Byte} {moves : List BusAccess}

/-- The counter does not wrap up to the length, which has a bit less. -/
theorem counter_toNat (hk : k ≤ chainLength s) : (BitVec.ofNat 33 k).toNat = k := by
  have hlength := (chainD1 s).length.isLt
  rw [chainLength] at hk
  rw [BitVec.toNat_ofNat]
  omega

theorem bufferAddr_counter (hk : k ≤ chainLength s) (d : Desc) :
    bufferAddr d (BitVec.ofNat 33 k) = d.address + BitVec.ofNat 64 k := by
  rw [bufferAddr, ← BitVec.ofNat_toNat, counter_toNat hk]

theorem diskOffset_counter (hk : k ≤ chainLength s) :
    diskOffset (chainSector s) (BitVec.ofNat 33 k) = chainDiskOffset s + k := by
  rw [diskOffset, counter_toNat hk]
  rfl

/-- A byte moved: the access is on the record and the counter is at the next byte (R167). -/
theorem nextByte_copyingFrom (acc : BusAccess) (m' : Memory) (disk' : List Byte) :
    nextByte { accessed acc m' (copyingFrom v s k m disk moves) with disk := disk' } =
      copyingFrom v s (k + 1) m' disk' (moves ++ [acc]) := by
  simp [nextByte, copyingFrom, inTransfer, afterChain, accessed, BitVec.ofNat_add]

/-- One step of the copy from the disk to the guest (R169). -/
theorem copyStep_toGuest (hdir : (chainD1 s).flags.getLsbD 1 = true) (hk : k < chainLength s) {b : Byte}
    (hb : disk[chainDiskOffset s + k]? = some b)
    (hserves : serves s ((chainD1 s).address + BitVec.ofNat 64 k) 1 = true) :
    copyStep (copyingFrom v s k m disk moves) =
      copyingFrom v s (k + 1) (writeBytes m ((chainD1 s).address + BitVec.ofNat 64 k) [b]) disk
        (moves ++ [.store ((chainD1 s).address + BitVec.ofNat 64 k) [b]]) := by
  have hleft : (BitVec.ofNat 33 k).toNat < chainLength s := (counter_toNat hk.le).symm ▸ hk
  rw [← diskOffset_counter hk.le] at hb
  rw [← bufferAddr_counter hk.le] at hserves ⊢
  calc copyStep (copyingFrom v s k m disk moves)
    _ = copyD2g (copyingFrom v s k m disk moves) := if_pos hdir
    _ = memWrite (copyingFrom v s k m disk moves) (bufferAddr (chainD1 s) (BitVec.ofNat 33 k)) [b] nextByte :=
      copyD2g_of_left hleft hb
    _ = _ := memWrite_serves ((serves_congr rfl rfl _ _).trans hserves) _
    _ = _ := nextByte_copyingFrom _ _ disk

/-- One step of the copy from the guest to the disk (R168). -/
theorem copyStep_toDisk (hdir : (chainD1 s).flags.getLsbD 1 = false) (hk : k < chainLength s)
    (hin : chainDiskOffset s + k < disk.length)
    (hserves : serves s ((chainD1 s).address + BitVec.ofNat 64 k) 1 = true) :
    copyStep (copyingFrom v s k m disk moves) =
      copyingFrom v s (k + 1) m
        (disk.set (chainDiskOffset s + k) (readByte m ((chainD1 s).address + BitVec.ofNat 64 k).toNat))
        (moves ++ [.load ((chainD1 s).address + BitVec.ofNat 64 k) .b]) := by
  have hleft : (BitVec.ofNat 33 k).toNat < chainLength s := (counter_toNat hk.le).symm ▸ hk
  have hnotdir : ¬ deviceWritable (chainD1 s) = true := Bool.eq_false_iff.mp hdir
  rw [← diskOffset_counter hk.le] at hin ⊢
  rw [← bufferAddr_counter hk.le] at hserves ⊢
  have hread : busRead (copyingFrom v s k m disk moves) (bufferAddr (chainD1 s) (BitVec.ofNat 33 k)) .b =
      (some [readByte m (bufferAddr (chainD1 s) (BitVec.ofNat 33 k)).toNat], m) :=
    busRead_serves ((serves_congr rfl rfl _ _).trans hserves)
  calc copyStep (copyingFrom v s k m disk moves)
    _ = copyG2d (copyingFrom v s k m disk moves) := if_neg hnotdir
    _ = _ := copyG2d_answered hleft hread
    _ = _ := diskWrite_inside hin _ _
    _ = _ := nextByte_copyingFrom _ _ _

/-- With the whole buffer moved the copy ends, in both directions (R167). -/
theorem copyStep_at_length :
    copyStep (copyingFrom v s (chainLength s) m disk moves) =
      { copyingFrom v s (chainLength s) m disk moves with pc := .id } := by
  have hleft : ¬ copyLeft (copyingFrom v s (chainLength s) m disk moves).xfer = true := fun h =>
    absurd (of_decide_eq_true h) (counter_toNat (s := s) le_rfl).ge.not_gt
  rw [copyStep, copyD2g, copyG2d, if_neg hleft, if_neg hleft, ite_self]

/-- A copy whose steps go along a family of states in T_COPY. -/
theorem copyLoop_along {f : Nat → State} {n : Nat} (hpc : ∀ k, (f k).pc = .copy)
    (hstep : ∀ k < n, copyStep (f k) = f (k + 1)) (more : Nat) : copyLoop (n + more) (f 0) = copyLoop more (f n) := by
  induction n generalizing more with
  | zero => rw [Nat.zero_add]
  | succ n ih =>
    rw [Nat.add_right_comm, Nat.add_assoc, ih (fun k hk => hstep k (by omega)), copyLoop, if_pos (hpc n),
      hstep n (by omega)]

/-- Disk to guest up to byte `k`: the bytes before it are inside the disk and memory takes them. -/
theorem copyLoop_toGuest (hdir : (chainD1 s).flags.getLsbD 1 = true) (hk : k ≤ chainLength s)
    (hin : k = 0 ∨ chainDiskOffset s + k ≤ s.disk.length) (hserves : servesBuffer s (chainD1 s) k) (more : Nat) :
    copyLoop (k + more) (copiedToGuest v s 0) = copyLoop more (copiedToGuest v s k) := by
  refine copyLoop_along (fun _ => rfl) (fun j hj => ?_) more
  have hb : s.disk[chainDiskOffset s + j]? = some s.disk[chainDiskOffset s + j] := List.getElem?_eq_getElem (by omega)
  have hlen : (diskSlice s j).length = j := diskSlice_length (by omega)
  refine (copyStep_toGuest hdir (by omega) hb (hserves j hj)).trans ?_
  rw [copiedToGuest, diskSlice_succ hb, writeBytes_append, bufferStores_append, hlen]
  rfl

/-- Guest to disk up to byte `k`: memory serves the bytes before it and they are inside the disk. -/
theorem copyLoop_toDisk (hdir : (chainD1 s).flags.getLsbD 1 = false) (hk : k ≤ chainLength s)
    (hin : k = 0 ∨ chainDiskOffset s + k ≤ s.disk.length) (hserves : servesBuffer s (chainD1 s) k) (more : Nat) :
    copyLoop (k + more) (copiedToDisk v s 0) = copyLoop more (copiedToDisk v s k) := by
  refine copyLoop_along (fun _ => rfl) (fun j hj => ?_) more
  have hlen := readBytes_length s.mem (chainD1 s).address j
  have hdisk : (diskOverlay s (readBytes s.mem (chainD1 s).address j)).length = s.disk.length :=
    diskOverlay_length (by omega)
  refine (copyStep_toDisk hdir (by omega) (by omega) (hserves j hj)).trans ?_
  rw [copiedToDisk, readBytes_succ, diskOverlay_snoc (by omega), hlen, bufferLoads_succ]

/-- The whole of T_COPY from the disk to the guest. -/
theorem phaseCopy_toGuest (hdir : (chainD1 s).flags.getLsbD 1 = true) (hin : InBounds s)
    (hserves : servesBuffer s (chainD1 s) (chainLength s)) :
    phaseCopy (inTransfer v s .copy (chainXfer s) (chainAccesses s)) =
      { copiedToGuest v s (chainLength s) with pc := .id } := by
  rw [← copiedToGuest_zero]
  exact (copyLoop_toGuest hdir le_rfl hin hserves 1).trans copyStep_at_length

/-- The whole of T_COPY from the guest to the disk. -/
theorem phaseCopy_toDisk (hdir : (chainD1 s).flags.getLsbD 1 = false) (hin : InBounds s)
    (hserves : servesBuffer s (chainD1 s) (chainLength s)) :
    phaseCopy (inTransfer v s .copy (chainXfer s) (chainAccesses s)) =
      { copiedToDisk v s (chainLength s) with pc := .id } := by
  rw [← copiedToDisk_zero]
  exact (copyLoop_toDisk hdir le_rfl hin hserves 1).trans copyStep_at_length

/-! ## The completion -/

theorem usedFieldAddr_chainXfer (s : State) : usedFieldAddr (chainXfer s).used = usedField s := rfl

theorem phases_after_copy {t : State} (h : t.pc = .id) :
    thenPhase .used phaseUsed (thenPhase .id phaseId t) = phaseUsed (phaseId t) := by
  rw [thenPhase, thenPhase, if_pos h]
  exact if_pos rfl

/-- A request that is ready and whose copy reaches its last byte takes the next id and writes the used-ring field, its
last access (R190, R191). -/
theorem exec_wrNotify_completes (hready : Ready s) (hused : serves s (usedField s) 2 = true)
    (hcopy : phaseCopy (inTransfer v s .copy (chainXfer s) (chainAccesses s)) =
      { copyingFrom v s k m disk moves with pc := .id }) :
    exec (.wrNotify v) s = .next { afterChain v (chainAccesses s ++ moves ++
        [.store (usedField s) (usedFieldBytes (nextId s.params s.id))]) s with
      id := nextId s.params s.id
      mem := writeBytes m (usedField s) (usedFieldBytes (nextId s.params s.id))
      disk := disk
      xfer := .blank
      answer := .done } := by
  have ⟨hpc, hqpfn, hpgsz, _⟩ := hready
  rw [exec_wrNotify hpc hqpfn hpgsz, transfer_of_ready hready, hcopy]
  refine congrArg _ ((phases_after_copy rfl).trans
    ((memWrite_serves ((serves_congr rfl rfl _ _).trans hused) _).trans ?_))
  simp [endTransfer, accessed, copyingFrom, inTransfer, afterChain, setNotify, hpc, usedFieldAddr_chainXfer]

end

/-- Settles O40: the chain leads to T_COPY, each step moves the next byte of the disk into the buffer, and memory takes
the used-ring field. -/
theorem transferCopiesDiskToGuest : Obligations.TransferCopiesDiskToGuest :=
  fun _ _ hready hdir hin hserves hused =>
    exec_wrNotify_completes hready hused (phaseCopy_toGuest hdir hin hserves)

/-- Settles O41: as O40, each step laying the next byte of the buffer over the disk. -/
theorem transferCopiesGuestToDisk : Obligations.TransferCopiesGuestToDisk :=
  fun _ _ hready hdir hin hserves hused =>
    exec_wrNotify_completes hready hused (phaseCopy_toDisk hdir hin hserves)

end Sys2Proof.Machine
end

section
/-! PROOFS. The interrupt query (spec/42_irq_query.md R140): its code belongs to port I, and in DEAD it is not answered
(R211). -/

namespace Sys2Proof.Machine

theorem atPort_dead {s t : State} (h : s.pc = .dead) : atPort s t = .fault .dead := by
  simp [atPort, h]

/-- Every transaction has a code of port S, and the query's code is one of port I (R74). -/
theorem decodeSlave_ne_irqQuery (op : SlaveOp) : decodeSlave op ≠ .irqQuery := by
  intro hquery
  have hcode : encode .irqQuery = some (.slave (carried op)) := hquery ▸ encode_decodeSlave op
  have hport : encode .irqQuery = some (.port 0 []) := rfl
  simp [hport] at hcode

/-- Settles O15: port code 0 is the query's row of the table, no transaction has its code, and port I serves in IDLE
and faults in DEAD. -/
theorem queryReturnsAndClearsPending : Obligations.QueryReturnsAndClearsPending :=
  ⟨fun _ => rfl, decodeSlave_ne_irqQuery, fun _ => ⟨exec_irqQuery_idle, fun hpc => atPort_dead hpc⟩⟩

end Sys2Proof.Machine
end

section
/-! PROOFS. The reader of descriptors on memory (spec/43_descriptor_reader.md R150): the record in 16 bytes that memory
serves, and the fault of the first read that the bus refuses (R210). -/

namespace Sys2Proof.Machine

open Sys2Proof.Safety

/-- The bus answers a plan that memory serves with the bytes in memory; only the record of the bus grows (R45). -/
theorem planAnswers_serves {s : State} {plan : List Size} {a : Addr} (h : servesPlan s plan a = true) :
    planAnswers s plan a = some (readBytes s.mem a (planBytes plan),
      { s with busLog := (planAccesses plan a).reverse ++ s.busLog }) := by
  induction plan generalizing a s with
  | nil => rfl
  | cons n plan ih =>
    simp only [servesPlan, Bool.and_eq_true] at h
    obtain ⟨hread, hplan⟩ := h
    have hrest := ih ((servesPlan_congr (s := s) (t := accessed (.load a n) s.mem s) rfl rfl _ _).trans hplan)
    simp only [accessed] at hrest
    simp [planAnswers, busRead_serves hread, hrest, planBytes, readBytes_add, planAccesses]

/-- `descRead` where memory serves the reads before one that the bus refuses: the reads up to that one are on the
record, and its fault is raised. -/
theorem descRead_refuses {s : State} {a : Addr} {before after : List Size} {n : Size}
    (hplan : s.params.descReadPlan = before ++ n :: after) (hbefore : servesPlan s before a = true)
    (hread : refuses s (a + BitVec.ofNat 64 (planBytes before)) n.bytes = true) (rest : Desc → State → State) :
    descRead s a rest = raiseBusFault .load (a + BitVec.ofNat 64 (planBytes before))
      { s with busLog :=
          .load (a + BitVec.ofNat 64 (planBytes before)) n :: ((planAccesses before a).reverse ++ s.busLog) } :=
  descRead_refused hplan (planAnswers_serves hbefore) (busRead_refuses ((refuses_congr rfl rfl _ _).trans hread)) rest

/-- Settles O31: DESC.READ is `descRead` with the record as its answer. -/
theorem descReadAnswersTheRecord : Obligations.DescReadAnswersTheRecord :=
  fun _ _ hpc h16 hserves => primitive_of_eq hpc (descRead_serves h16 hserves _)

/-- Settles O32: each of the three operations is `descRead` with a continuation that the fault does not reach. -/
theorem descReadStopsAtTheFirstRefusedRead : Obligations.DescReadStopsAtTheFirstRefusedRead := by
  rintro s a b before after n hplan hbefore rfl hread i (⟨rfl, hpc⟩ | ⟨rfl, hpc, rfl⟩ | ⟨rfl, hpc, rfl⟩)
  · exact primitive_of_eq hpc (descRead_refuses hplan hbefore hread _)
  · exact inPhase_of_eq hpc (by decide) (descRead_refuses hplan hbefore hread _)
  · exact inPhase_of_eq hpc (by decide) (descRead_refuses hplan hbefore hread _)

end Sys2Proof.Machine
end

section
/-! PROOFS. The sequencer phases on memory (spec/44_dma_transfer.md R162 to R169): what memory serves or refuses is one
of the answers of the bus (R44), and the little-endian fields and the written byte are read off guest memory. -/

namespace Sys2Proof.Machine

open Sys2Proof.Safety

/-! ## Fields of two bytes as numbers -/

theorem toNat_append_bytes (b0 b1 : Byte) : (b1 ++ b0).toNat = b0.toNat + 256 * b1.toNat := by
  rw [← leField_two, leField_toNat (Nat.le_refl 16)]
  simp [leNat]

/-- The low three bits of the index are the index modulo 8 (R162). -/
theorem toNat_setWidth_slot (b0 b1 : Byte) : (b0.setWidth 3).toNat = (b1 ++ b0).toNat % 8 := by
  rw [← slotOf_append b0 b1, slotOf, BitVec.toNat_ofNat, Config.queueSize]
  exact Nat.mod_mod _ 8

/-! ## The reads before the copy -/

/-- Settles O22: memory serves the field with its two bytes, or refuses it. -/
theorem fillPhaseReadsIndexAndSlot : Obligations.FillPhaseReadsIndexAndSlot := by
  intro s hpc
  obtain ⟨hfill, -⟩ := phasesTakeWhateverTheBusAnswers s (s.xfer.avail + s.params.availIdxOff) s.mem
    (readByte s.mem (s.xfer.avail + s.params.availIdxOff).toNat)
    (readByte s.mem (s.xfer.avail + s.params.availIdxOff + 1).toNat)
  obtain ⟨hanswered, hrefused⟩ := hfill hpc rfl
  exact ⟨fun h => ⟨_, _, toNat_append_bytes _ _, toNat_setWidth_slot _ _, hanswered (busRead_serves (n := .h) h)⟩,
    fun h => hrefused (busRead_refuses (n := .h) h)⟩

/-- Settles O23: as O22, at the address of the slot. -/
theorem headPhaseReadsTheSlot : Obligations.HeadPhaseReadsTheSlot := by
  intro s a hpc ha
  obtain ⟨-, hhead, -⟩ := phasesTakeWhateverTheBusAnswers s a s.mem (readByte s.mem a.toNat)
    (readByte s.mem (a + 1).toNat)
  obtain ⟨hanswered, hrefused⟩ := hhead hpc ha
  exact ⟨fun h => ⟨_, toNat_append_bytes _ _, hanswered (busRead_serves (n := .h) h)⟩,
    fun h => hrefused (busRead_refuses (n := .h) h)⟩

/-- Settles O24: each of the two phases is `descRead` at the address of its entry. -/
theorem descriptorPhasesReadTheTableEntries : Obligations.DescriptorPhasesReadTheTableEntries := by
  intro s a h16
  constructor
  all_goals
    rintro hpc rfl hserves
    exact inPhase_of_eq hpc (by decide) (descRead_serves h16 hserves _)

/-- Settles O25: as O22, for the eight bytes of the header's field. -/
theorem sectorPhaseReadsTheHeaderField : Obligations.SectorPhaseReadsTheHeaderField := by
  intro s a hpc ha
  obtain ⟨-, -, -, -, hsector, -⟩ := phasesTakeWhateverTheBusAnswers s a s.mem 0 0
  obtain ⟨hanswered, hrefused⟩ := hsector hpc ha
  exact ⟨fun h => hanswered _ (busRead_serves (n := .d) h), fun h => hrefused (busRead_refuses (n := .d) h)⟩

/-! ## One step of the copy -/

theorem not_copyLeft {x : Xfer} (h : x.d1.length.toNat ≤ x.i.toNat) : ¬ copyLeft x = true :=
  fun hleft => absurd (of_decide_eq_true hleft) h.not_gt

theorem diskRead_past {s : State} {off : Nat} (h : s.disk.length ≤ off) (rest : Byte → State → State) :
    diskRead s off rest = raiseDiskAbort off s := by
  rw [diskRead, List.getElem?_eq_none h]

/-- Past the end of the disk the device is DEAD before anything is written to the guest (R169). -/
theorem copyD2g_past {s : State} (hleft : s.xfer.i.toNat < s.xfer.d1.length.toNat)
    (hpast : s.disk.length ≤ diskOffset s.xfer.sector s.xfer.i) :
    copyD2g s = raiseDiskAbort (diskOffset s.xfer.sector s.xfer.i) s :=
  (if_pos (decide_eq_true hleft)).trans (diskRead_past hpast _)

/-- Settles O26: the first three cases are answers of the bus to the read of the byte; with no byte left there is no
access. -/
theorem copyGuestToDiskMovesOneByte : Obligations.CopyGuestToDiskMovesOneByte := by
  intro s a off hpc hdir ha hoff
  obtain ⟨-, -, -, -, -, hcopy, -⟩ := phasesTakeWhateverTheBusAnswers s a s.mem (readByte s.mem a.toNat) 0
  refine ⟨fun hleft hserves hin => ?inside, fun hleft hserves hpast => ?past, fun hleft hrefuses => ?refused,
    fun hdone => ?done⟩
  case inside =>
    obtain ⟨hinside, -, -⟩ := (hcopy hpc ha hleft off hoff).1 hdir
    exact hinside (busRead_serves (n := .b) hserves) hin
  case past =>
    obtain ⟨-, hpastEnd, -⟩ := (hcopy hpc ha hleft off hoff).1 hdir
    exact hpastEnd (busRead_serves (n := .b) hserves) hpast
  case refused =>
    obtain ⟨-, -, hrefused⟩ := (hcopy hpc ha hleft off hoff).1 hdir
    exact hrefused (busRead_refuses (n := .b) hrefuses)
  case done => rw [exec_dmaCopyG2d hpc hdir, copyG2d, if_neg (not_copyLeft hdone)]

/-- Settles O27: with a byte inside the disk the cases are the answers of the bus to its write, and a served write
changes that one byte of guest memory; past the end and with no byte left there is no access. -/
theorem copyDiskToGuestMovesOneByte : Obligations.CopyDiskToGuestMovesOneByte := by
  intro s a off hwf hpc hdir ha hoff
  refine ⟨fun b hleft hbyte hserves => ?served, fun b hleft hbyte hrefuses => ?refused, fun hleft hpast => ?past,
    fun hdone => ?done⟩
  case served =>
    obtain ⟨-, -, -, -, -, hcopy, -⟩ := phasesTakeWhateverTheBusAnswers s a (writeByte s.mem a.toNat b) b 0
    obtain ⟨hwritten, -⟩ := (hcopy hpc ha hleft off hoff).2 hdir hbyte
    exact ⟨_, readByte_writeByte_same b hwf, fun x hx => readByte_writeByte_other s.mem b hx,
      hwritten (busWrite_serves (bytes := [b]) hserves)⟩
  case refused =>
    obtain ⟨-, -, -, -, -, hcopy, -⟩ := phasesTakeWhateverTheBusAnswers s a s.mem b 0
    obtain ⟨-, hrefused⟩ := (hcopy hpc ha hleft off hoff).2 hdir hbyte
    exact hrefused (busWrite_refuses (bytes := [b]) hrefuses)
  case past =>
    subst hoff
    exact (exec_dmaCopyD2g hpc hdir).trans (congrArg _ (copyD2g_past hleft hpast))
  case done => rw [exec_dmaCopyD2g hpc hdir, copyD2g, if_neg (not_copyLeft hdone)]

end Sys2Proof.Machine
end

section
/-! PROOFS. A ready request that does not complete (spec/44_dma_transfer.md R172; spec/60_exceptions.md R210, R211): the
copy stops at the first byte that the bus refuses or that lies past the end of the disk, or T_USED is refused; what was
moved before stays moved. -/

namespace Sys2Proof.Machine

open Sys2Proof.Safety

/-! ## Nothing runs in DEAD -/

theorem beforeRun_dead {s t : State} (h : s.pc = .dead) : beforeRun s t = .fault .dead := by
  simp [beforeRun, h]

theorem inPhase_dead {p : Phase} {s t : State} (h : s.pc = .dead) : inPhase p s t = .fault .dead := if_pos h

theorem primitive_dead {s t : State} (h : s.pc = .dead) : primitive s t = .fault .dead := if_pos h

/-- In DEAD every operation faults: none of them has its port, its phase or its primitive then (R211). -/
theorem exec_dead {s : State} (h : s.pc = .dead) (i : Instr) : exec i s = .fault .dead := by
  have hidle : s.pc ≠ .idle := by simp [h]
  have hcopy : s.pc ≠ .copy := by simp [h]
  cases i
  case wrNotify => exact (if_neg fun hnotify => hidle hnotify.1).trans (atPort_dead h)
  case dmaCopyG2d => exact (if_neg fun hdir => hcopy hdir.1).trans (inPhase_dead h)
  case dmaCopyD2g => exact (if_neg fun hdir => hcopy hdir.1).trans (inPhase_dead h)
  case diskInit => exact beforeRun_dead h
  case reset => exact beforeRun_dead h
  case dmaBase | dmaFill | dmaHead | dmaDesc0 | dmaDesc1 | dmaSector | dmaId | dmaUsed => exact inPhase_dead h
  case descRead | diskRdb | diskWrb => exact primitive_dead h
  all_goals exact atPort_dead h

theorem step_dead {s : State} (h : s.pc = .dead) : step s = .fault .dead := by
  simp only [step, fetch, h]

/-! ## The copy stops at a byte -/

section

variable {s : State} {v : Word64} {k : Nat} {m : Memory} {disk : List Byte} {moves : List BusAccess}

/-- At byte `k` bytes are left (R167). -/
theorem counter_lt (hk : k < chainLength s) : (BitVec.ofNat 33 k).toNat < chainLength s := by
  rwa [counter_toNat hk.le]

/-- Disk to guest: byte `k` is written to the guest after the disk has given it, and the bus refuses it (R169). -/
theorem copyStep_toGuest_refused (hdir : (chainD1 s).flags.getLsbD 1 = true) (hk : k < chainLength s) {b : Byte}
    (hb : disk[chainDiskOffset s + k]? = some b)
    (hrefuses : refuses s ((chainD1 s).address + BitVec.ofNat 64 k) 1 = true) :
    copyStep (copyingFrom v s k m disk moves) = raiseBusFault .store ((chainD1 s).address + BitVec.ofNat 64 k)
      (accessed (.store ((chainD1 s).address + BitVec.ofNat 64 k) [b]) m (copyingFrom v s k m disk moves)) := by
  rw [← diskOffset_counter hk.le] at hb
  rw [← bufferAddr_counter hk.le] at hrefuses ⊢
  calc copyStep (copyingFrom v s k m disk moves)
    _ = copyD2g (copyingFrom v s k m disk moves) := if_pos hdir
    _ = _ := copyD2g_of_left (counter_lt hk) hb
    _ = _ := memWrite_refuses ((refuses_congr rfl rfl _ _).trans hrefuses) _

/-- Disk to guest: byte `k` is past the end of the disk, and nothing is asked of the bus (R169, R211). -/
theorem copyStep_toGuest_past (hdir : (chainD1 s).flags.getLsbD 1 = true) (hk : k < chainLength s)
    (hpast : disk.length ≤ chainDiskOffset s + k) :
    copyStep (copyingFrom v s k m disk moves) =
      raiseDiskAbort (chainDiskOffset s + k) (copyingFrom v s k m disk moves) := by
  rw [← diskOffset_counter hk.le] at hpast ⊢
  exact (if_pos hdir).trans (copyD2g_past (s := copyingFrom v s k m disk moves) (counter_lt hk) hpast)

/-- Guest to disk: the bus refuses the read of byte `k`, wherever the disk ends (R168, R225). -/
theorem copyStep_toDisk_refused (hdir : (chainD1 s).flags.getLsbD 1 = false) (hk : k < chainLength s)
    (hrefuses : refuses s ((chainD1 s).address + BitVec.ofNat 64 k) 1 = true) :
    copyStep (copyingFrom v s k m disk moves) = raiseBusFault .load ((chainD1 s).address + BitVec.ofNat 64 k)
      (accessed (.load ((chainD1 s).address + BitVec.ofNat 64 k) .b) m (copyingFrom v s k m disk moves)) := by
  have hnotdir : ¬ deviceWritable (chainD1 s) = true := Bool.eq_false_iff.mp hdir
  rw [← bufferAddr_counter hk.le] at hrefuses ⊢
  calc copyStep (copyingFrom v s k m disk moves)
    _ = copyG2d (copyingFrom v s k m disk moves) := if_neg hnotdir
    _ = _ := copyG2d_of_left (counter_lt hk)
    _ = _ := memRead_refuses (s := copyingFrom v s k m disk moves) (n := .b)
        ((refuses_congr rfl rfl _ _).trans hrefuses) _

/-- Guest to disk: byte `k` is read from the guest and is past the end of the disk (R168, R211). -/
theorem copyStep_toDisk_past (hdir : (chainD1 s).flags.getLsbD 1 = false) (hk : k < chainLength s)
    (hpast : disk.length ≤ chainDiskOffset s + k)
    (hserves : serves s ((chainD1 s).address + BitVec.ofNat 64 k) 1 = true) :
    copyStep (copyingFrom v s k m disk moves) = raiseDiskAbort (chainDiskOffset s + k)
      (accessed (.load ((chainD1 s).address + BitVec.ofNat 64 k) .b) m (copyingFrom v s k m disk moves)) := by
  have hnotdir : ¬ deviceWritable (chainD1 s) = true := Bool.eq_false_iff.mp hdir
  rw [← diskOffset_counter hk.le] at hpast ⊢
  rw [← bufferAddr_counter hk.le] at hserves ⊢
  have hread : busRead (copyingFrom v s k m disk moves) (bufferAddr (chainD1 s) (BitVec.ofNat 33 k)) .b =
      (some [readByte m (bufferAddr (chainD1 s) (BitVec.ofNat 33 k)).toNat], m) :=
    busRead_serves ((serves_congr rfl rfl _ _).trans hserves)
  calc copyStep (copyingFrom v s k m disk moves)
    _ = copyG2d (copyingFrom v s k m disk moves) := if_neg hnotdir
    _ = _ := copyG2d_answered (counter_lt hk) hread
    _ = _ := diskWrite_past hpast _ _

/-- A copy that comes to byte `k` and whose next step ends the transfer. -/
theorem copyLoop_stops {t u w : State} (hk : k < chainLength s)
    (hloop : ∀ more, copyLoop (k + more) t = copyLoop more u) (hpc : u.pc = .copy) (hstep : copyStep u = w)
    (hw : Settled w) : copyLoop (chainLength s + 1) t = w := by
  have hcopy : w.pc ≠ .copy := by rcases hw with h | h <;> simp [h]
  have hlength : chainLength s + 1 = k + (chainLength s - k + 1) := by omega
  rw [hlength, hloop, copyLoop, if_pos hpc, hstep, copyLoop_of_pc_ne hcopy]

theorem thenPhase_of_settled {p : Phase} (hidle : p ≠ .idle) (hdead : p ≠ .dead) {t : State} (h : Settled t)
    (f : State → State) : thenPhase p f t = t :=
  if_neg (by rcases h with h | h <;> simp [h, hidle.symm, hdead.symm])

/-- A ready request whose copy ends the transfer: the phases after it are skipped (R160). -/
theorem exec_wrNotify_of_stopped {t : State} (hready : Ready s)
    (hcopy : phaseCopy (inTransfer v s .copy (chainXfer s) (chainAccesses s)) = t) (ht : Settled t) :
    exec (.wrNotify v) s = .next t := by
  have ⟨hpc, hqpfn, hpgsz, _⟩ := hready
  rw [exec_wrNotify hpc hqpfn hpgsz, transfer_of_ready hready, hcopy,
    thenPhase_of_settled (p := .id) (by decide) (by decide) ht,
    thenPhase_of_settled (p := .used) (by decide) (by decide) ht]

/-- Disk to guest, stopped at byte `k`. -/
theorem exec_wrNotify_stops_toGuest {t : State} (hready : Ready s) (hdir : (chainD1 s).flags.getLsbD 1 = true)
    (hk : k < chainLength s) (hin : k = 0 ∨ chainDiskOffset s + k ≤ s.disk.length)
    (hserves : servesBuffer s (chainD1 s) k) (hstep : copyStep (copiedToGuest v s k) = t) (ht : Settled t) :
    exec (.wrNotify v) s = .next t := by
  refine exec_wrNotify_of_stopped hready ?_ ht
  rw [← copiedToGuest_zero]
  exact copyLoop_stops hk (copyLoop_toGuest hdir hk.le hin hserves) rfl hstep ht

/-- Guest to disk, stopped at byte `k`. -/
theorem exec_wrNotify_stops_toDisk {t : State} (hready : Ready s) (hdir : (chainD1 s).flags.getLsbD 1 = false)
    (hk : k < chainLength s) (hin : k = 0 ∨ chainDiskOffset s + k ≤ s.disk.length)
    (hserves : servesBuffer s (chainD1 s) k) (hstep : copyStep (copiedToDisk v s k) = t) (ht : Settled t) :
    exec (.wrNotify v) s = .next t := by
  refine exec_wrNotify_of_stopped hready ?_ ht
  rw [← copiedToDisk_zero]
  exact copyLoop_stops hk (copyLoop_toDisk hdir hk.le hin hserves) rfl hstep ht

@[simp] theorem copyingFrom_id : (copyingFrom v s k m disk moves).id = s.id := by
  simp [copyingFrom, inTransfer, afterChain]

@[simp] theorem copyingFrom_notifyValue : (copyingFrom v s k m disk moves).notifyValue = writeValue v := by
  simp [copyingFrom, inTransfer, afterChain]

@[simp] theorem copyingFrom_mem : (copyingFrom v s k m disk moves).mem = m := by rw [copyingFrom]

@[simp] theorem copyingFrom_disk : (copyingFrom v s k m disk moves).disk = disk := by rw [copyingFrom]

/-- A fault of the copy leaves the bytes moved and the accesses issued, the refused one with them (R210). -/
theorem raiseBusFault_copyingFrom (hpc : s.pc = .idle) (kind : AccessKind) (a : Addr) (acc : BusAccess) :
    raiseBusFault kind a (accessed acc m (copyingFrom v s k m disk moves)) =
      { afterChain v (chainAccesses s ++ (moves ++ [acc])) s with
        mem := m
        disk := disk
        xfer := .blank
        answer := .busFault kind a (faultCode s.params kind) } := by
  simp [raiseBusFault, endTransfer, accessed, copyingFrom, inTransfer, afterChain, setNotify, hpc]

end

/-- Settles O42: the copy reaches byte `k`, whose write is refused. -/
theorem diskToGuestFaultLeavesThePrefix : Obligations.DiskToGuestFaultLeavesThePrefix := by
  rintro v s k a hready hdir hk hoff hserves rfl hrefuses
  have hb : s.disk[chainDiskOffset s + k]? = some s.disk[chainDiskOffset s + k] := List.getElem?_eq_getElem hoff
  have hlen : (diskSlice s k).length = k := diskSlice_length (.inr hoff.le)
  refine (exec_wrNotify_stops_toGuest hready hdir hk (.inr hoff.le) hserves
    (copyStep_toGuest_refused hdir hk hb hrefuses) (.inl rfl)).trans ?_
  rw [raiseBusFault_copyingFrom hready.1, diskSlice_succ hb, bufferStores_append, hlen]
  rfl

/-- Settles O43: the copy reaches byte `k`, whose read is refused. -/
theorem guestToDiskFaultLeavesThePrefix : Obligations.GuestToDiskFaultLeavesThePrefix := by
  rintro v s k a hready hdir hk hin hserves rfl hrefuses
  refine (exec_wrNotify_stops_toDisk hready hdir hk hin hserves
    (copyStep_toDisk_refused hdir hk hrefuses) (.inl rfl)).trans ?_
  rw [raiseBusFault_copyingFrom hready.1, bufferLoads_succ]
  rfl

/-- Settles O44: the copy reaches byte `k`, which is past the end of the disk; to the disk it is read first. -/
theorem diskOverrunKillsTheDevice : Obligations.DiskOverrunKillsTheDevice := by
  intro v s k hready hk hin hpast hserves hserved
  cases hdir : (chainD1 s).flags.getLsbD 1 with
  | true =>
    have hstep := copyStep_toGuest_past (v := v) (m := writeBytes s.mem (chainD1 s).address (diskSlice s k))
      (moves := bufferStores (chainD1 s).address (diskSlice s k)) hdir hk hpast
    have hrun := exec_wrNotify_stops_toGuest hready hdir hk hin hserves hstep (.inr (raiseDiskAbort_pc _ _))
    exact ⟨_, hrun, raiseDiskAbort_pc _ _, raiseDiskAbort_answer _ _, by simp, by simp [writeValue],
      fun _ => ⟨by simp, by simp⟩, nofun, exec_dead (raiseDiskAbort_pc _ _), step_dead (raiseDiskAbort_pc _ _)⟩
  | false =>
    have hlen := readBytes_length s.mem (chainD1 s).address k
    have hdisk : (diskOverlay s (readBytes s.mem (chainD1 s).address k)).length = s.disk.length :=
      diskOverlay_length (by omega)
    have hstep := copyStep_toDisk_past (v := v) (m := s.mem) (moves := bufferLoads (chainD1 s).address k) hdir hk
      (hdisk.le.trans hpast) (hserved hdir)
    have hrun := exec_wrNotify_stops_toDisk hready hdir hk hin hserves hstep (.inr (raiseDiskAbort_pc _ _))
    exact ⟨_, hrun, raiseDiskAbort_pc _ _, raiseDiskAbort_answer _ _, by simp, by simp [writeValue],
      nofun, fun _ => ⟨by simp, by simp⟩, exec_dead (raiseDiskAbort_pc _ _), step_dead (raiseDiskAbort_pc _ _)⟩

/-! ## The used-ring field is refused -/

/-- A ready request whose copy reaches its last byte takes the next id, and the fault of the used-ring field leaves all
of that (R191, R210). -/
theorem exec_wrNotify_usedFault {s : State} {v : Word64} {k : Nat} {m : Memory} {disk : List Byte}
    {moves : List BusAccess} (hready : Ready s) (hused : refuses s (usedField s) 2 = true)
    (hcopy : phaseCopy (inTransfer v s .copy (chainXfer s) (chainAccesses s)) =
      { copyingFrom v s k m disk moves with pc := .id }) :
    exec (.wrNotify v) s = .next { afterChain v (chainAccesses s ++ moves ++
        [.store (usedField s) (usedFieldBytes (nextId s.params s.id))]) s with
      id := nextId s.params s.id
      mem := m
      disk := disk
      xfer := .blank
      answer := .busFault .store (usedField s) s.params.storeFaultCode } := by
  have ⟨hpc, hqpfn, hpgsz, _⟩ := hready
  rw [exec_wrNotify hpc hqpfn hpgsz, transfer_of_ready hready, hcopy]
  refine congrArg _ ((phases_after_copy rfl).trans
    ((memWrite_refuses ((refuses_congr rfl rfl _ _).trans hused) _).trans ?_))
  simp [raiseBusFault, endTransfer, accessed, copyingFrom, inTransfer, afterChain, setNotify, hpc,
    usedFieldAddr_chainXfer, faultCode]

/-- Settles O45: in both directions the copy reaches its last byte. -/
theorem usedFieldFaultKeepsCopyAndId : Obligations.UsedFieldFaultKeepsCopyAndId := by
  intro v s hready hin hserves hused
  have ⟨hpc, _⟩ := hready
  cases hdir : (chainD1 s).flags.getLsbD 1 with
  | true =>
    exact ⟨_, exec_wrNotify_usedFault hready hused (phaseCopy_toGuest hdir hin hserves), hpc, rfl, rfl,
      fun _ => ⟨rfl, rfl⟩, nofun⟩
  | false =>
    exact ⟨_, exec_wrNotify_usedFault hready hused (phaseCopy_toDisk hdir hin hserves), hpc, rfl, rfl,
      nofun, fun _ => ⟨rfl, rfl⟩⟩

end Sys2Proof.Machine
end

section
/-! PROOFS. A refused read before the copy (spec/44_dma_transfer.md R172, first row; R210): the notify's transfer is
followed as the list of its phases up to the one that reads (`ComesTo`), nothing is moved, and the fault skips the
rest. -/

namespace Sys2Proof.Machine

open Sys2Proof.Safety

/-! ## The transfer as a list of phases -/

/-- The phases in their order (R160). -/
def phaseSequence : List (Phase × (State → State)) :=
  [(.base, phaseBase), (.fill, phaseFill), (.head, phaseHead), (.desc0, phaseDesc0), (.desc1, phaseDesc1),
   (.sector, phaseSector), (.copy, phaseCopy), (.id, phaseId), (.used, phaseUsed)]

/-- Phases run one after another, each only if the sequencer has reached it. -/
def runPhases : List (Phase × (State → State)) → State → State
  | [], s => s
  | (p, f) :: rest, s => runPhases rest (thenPhase p f s)

theorem transfer_eq_runPhases (s : State) : transfer s = runPhases phaseSequence s := rfl

theorem runPhases_cons_of_pc {p : Phase} {f : State → State} {rest : List (Phase × (State → State))} {s : State}
    (h : s.pc = p) : runPhases ((p, f) :: rest) s = runPhases rest (f s) := by
  rw [runPhases, thenPhase, if_pos h]

/-- In IDLE the phases still ahead are skipped. -/
theorem runPhases_of_idle {phases : List (Phase × (State → State))} {s : State} (hpc : s.pc = .idle)
    (hphases : ∀ ph ∈ phases, ph.1 ≠ .idle) : runPhases phases s = s := by
  induction phases with
  | nil => rfl
  | cons ph rest ih =>
    have hskip : s.pc ≠ ph.1 := hpc ▸ (hphases ph (.head _)).symm
    rw [runPhases, thenPhase, if_neg hskip]
    exact ih fun ph hph => hphases ph (.tail _ hph)

theorem drop_phaseSequence_ne_idle {n : Nat} : ∀ ph ∈ phaseSequence.drop n, ph.1 ≠ .idle := by
  have hall : ∀ ph ∈ phaseSequence, ph.1 ≠ .idle := by simp [phaseSequence]
  exact fun ph hph => hall ph (List.mem_of_mem_drop hph)

/-! ## The state at a refused read -/

/-- The end of a transfer from `s` by a load fault before the copy: the accesses are on the record, nothing else has
changed but the register update (R172). -/
def chainFaulted (v : Word64) (s : State) (a : Addr) (accesses : List BusAccess) : State :=
  { afterChain v accesses s with xfer := .blank, answer := .busFault .load a s.params.loadFaultCode }

section

variable {s : State} {v : Word64} {a : Addr} {p q : Phase} {x : Xfer} {accesses : List BusAccess}
  {f : State → State} {rest : List (Phase × (State → State))}

theorem raiseBusFault_inTransfer (hpc : s.pc = .idle) (a : Addr) :
    raiseBusFault .load a (inTransfer v s p x accesses) = chainFaulted v s a accesses := by
  simp [raiseBusFault, endTransfer, inTransfer, afterChain, setNotify, chainFaulted, faultCode, hpc]

theorem memRead_inTransfer_refuses (hpc : s.pc = .idle) {n : Size} (h : refuses s a n.bytes = true)
    (cont : List Byte → State → State) :
    memRead (inTransfer v s p x accesses) a n cont = chainFaulted v s a (accesses ++ [.load a n]) := by
  rw [memRead_refuses (s := inTransfer v s p x accesses) ((refuses_congr rfl rfl _ _).trans h),
    ← raiseBusFault_inTransfer (p := p) (x := x) hpc]
  simp [inTransfer, afterChain, setNotify, accessed]

theorem descRead_inTransfer_refuses (hpc : s.pc = .idle) {start : Addr} {before after : List Size} {n : Size}
    (hplan : s.params.descReadPlan = before ++ n :: after) (hbefore : servesPlan s before start = true)
    (ha : a = start + BitVec.ofNat 64 (planBytes before)) (h : refuses s a n.bytes = true)
    (cont : Desc → State → State) :
    descRead (inTransfer v s p x accesses) start cont =
      chainFaulted v s a (accesses ++ (planAccesses before start ++ [.load a n])) := by
  subst ha
  rw [descRead_refuses (s := inTransfer v s p x accesses) hplan ((servesPlan_inTransfer _ _).trans hbefore)
    ((refuses_congr rfl rfl _ _).trans h), ← raiseBusFault_inTransfer (p := p) (x := x) hpc]
  simp [inTransfer, afterChain, setNotify]

/-! ## The phases up to the refused read -/

/-- The transfer of a notify comes to phase `p` with the phases `rest` from it on ahead: it has read the chain up to
there and moved nothing. The values of the chain that are still to be read stand there already, which a transfer does
not see (R21). -/
def ComesTo (v : Word64) (s : State) (p : Phase) (rest : List (Phase × (State → State))) : Prop :=
  ∃ accesses, transfer (startTransfer (writeValue v) s) =
    runPhases rest (inTransfer v s p (chainXfer s) accesses)

/-- The values that the registers no phase reads have in a state. -/
def Unread.of (s : State) : Unread := ⟨s.qsel, s.qnum, s.notifyValid, s.notifyValue⟩

theorem Unread.put_of (s : State) : (Unread.of s).put s = s := rfl

/-- A transfer does not depend on the transient values that it finds (R21). -/
theorem transfer_xfer {t : State} (hpc : t.pc = .base) (x : Xfer) : transfer { t with xfer := x } = transfer t := by
  have hput := transfer_put (c := Unread.of t) hpc x
  have hsame := transfer_put (c := Unread.of t) hpc t.xfer
  rw [Unread.put_of] at hput hsame
  exact hput.trans hsame.symm

theorem comesTo_base (v : Word64) (s : State) : ComesTo v s .base phaseSequence :=
  ⟨[], (transfer_xfer (t := startTransfer (writeValue v) s) rfl (chainXfer s)).symm⟩

/-- A phase whose read is served leads to the next one. -/
theorem ComesTo.goes_on (h : ComesTo v s p ((p, f) :: rest)) {more : List BusAccess}
    (hf : ∀ accesses, f (inTransfer v s p (chainXfer s) accesses) =
      inTransfer v s q (chainXfer s) (accesses ++ more)) : ComesTo v s q rest := by
  obtain ⟨accesses, htransfer⟩ := h
  exact ⟨accesses ++ more, htransfer.trans ((runPhases_cons_of_pc rfl).trans (congrArg _ (hf accesses)))⟩

/-- A phase whose read is refused ends the transfer. -/
theorem ComesTo.faults (h : ComesTo v s p ((p, f) :: rest)) (hpc : s.pc = .idle)
    (hrest : ∀ ph ∈ rest, ph.1 ≠ .idle) {more : List BusAccess}
    (hf : ∀ accesses, f (inTransfer v s p (chainXfer s) accesses) = chainFaulted v s a (accesses ++ more)) :
    ∃ accesses, transfer (startTransfer (writeValue v) s) = chainFaulted v s a accesses := by
  obtain ⟨accesses, htransfer⟩ := h
  refine ⟨accesses ++ more, htransfer.trans ((runPhases_cons_of_pc rfl).trans ?_)⟩
  rw [hf]
  exact runPhases_of_idle hpc hrest

theorem comesTo_fill (v : Word64) (s : State) : ComesTo v s .fill (phaseSequence.drop 1) :=
  (comesTo_base v s).goes_on (more := []) fun accesses => by rw [List.append_nil]; rfl

theorem comesTo_head (v : Word64) (hfill : serves s (fillAddr s.params (availAddr (descTableAddress s))) 2 = true) :
    ComesTo v s .head (phaseSequence.drop 2) :=
  (comesTo_fill v s).goes_on fun _ => phaseFill_inTransfer rfl hfill

theorem comesTo_desc0 (v : Word64) (hfill : serves s (fillAddr s.params (availAddr (descTableAddress s))) 2 = true)
    (hslot : serves s (chainSlotAddr s) 2 = true) : ComesTo v s .desc0 (phaseSequence.drop 3) :=
  (comesTo_head v hfill).goes_on fun _ => phaseHead_inTransfer rfl rfl hslot

theorem comesTo_desc1 (v : Word64) (hfill : serves s (fillAddr s.params (availAddr (descTableAddress s))) 2 = true)
    (hslot : serves s (chainSlotAddr s) 2 = true) (h16 : planBytes s.params.descReadPlan = 16)
    (hd0 : servesPlan s s.params.descReadPlan (chainD0Addr s) = true) :
    ComesTo v s .desc1 (phaseSequence.drop 4) :=
  (comesTo_desc0 v hfill hslot).goes_on fun _ => phaseDesc0_inTransfer rfl rfl h16 hd0

theorem comesTo_sector (v : Word64) (hfill : serves s (fillAddr s.params (availAddr (descTableAddress s))) 2 = true)
    (hslot : serves s (chainSlotAddr s) 2 = true) (h16 : planBytes s.params.descReadPlan = 16)
    (hd0 : servesPlan s s.params.descReadPlan (chainD0Addr s) = true)
    (hd1 : servesPlan s s.params.descReadPlan (chainD1Addr s) = true) :
    ComesTo v s .sector (phaseSequence.drop 5) :=
  (comesTo_desc1 v hfill hslot h16 hd0).goes_on fun _ => phaseDesc1_inTransfer rfl rfl h16 hd1

/-- Whichever read of the chain is the refused one, the transfer ends there. -/
theorem transfer_of_chainRefused (v : Word64) (hpc : s.pc = .idle) (h : ChainRefusedAt s a) :
    ∃ accesses, transfer (startTransfer (writeValue v) s) = chainFaulted v s a accesses := by
  rcases h with ⟨rfl, hrefuses⟩ | ⟨hfill, rfl, hrefuses⟩ |
    ⟨hfill, hslot, before, after, n, hplan, hbefore, ha, hrefuses⟩ |
    ⟨hfill, hslot, h16, hd0, before, after, n, hplan, hbefore, ha, hrefuses⟩ |
    ⟨hfill, hslot, h16, hd0, hd1, rfl, hrefuses⟩
  · exact (comesTo_fill v s).faults hpc (drop_phaseSequence_ne_idle (n := 2)) fun _ =>
      memRead_inTransfer_refuses hpc (n := .h) hrefuses _
  · exact (comesTo_head v hfill).faults hpc (drop_phaseSequence_ne_idle (n := 3)) fun _ =>
      memRead_inTransfer_refuses hpc (n := .h) hrefuses _
  · exact (comesTo_desc0 v hfill hslot).faults hpc (drop_phaseSequence_ne_idle (n := 4)) fun _ =>
      descRead_inTransfer_refuses hpc hplan hbefore ha hrefuses _
  · exact (comesTo_desc1 v hfill hslot h16 hd0).faults hpc (drop_phaseSequence_ne_idle (n := 5)) fun _ =>
      descRead_inTransfer_refuses hpc hplan hbefore ha hrefuses _
  · exact (comesTo_sector v hfill hslot h16 hd0 hd1).faults hpc (drop_phaseSequence_ne_idle (n := 6)) fun _ =>
      memRead_inTransfer_refuses hpc (n := .d) hrefuses _

end

/-- Settles O46: a refused read of the chain ends the transfer with what the notify's register update and the reads
have left. -/
theorem chainReadFaultMovesNothing : Obligations.ChainReadFaultMovesNothing := by
  intro v s a hpc hqpfn hpgsz hrefused
  obtain ⟨accesses, hend⟩ := transfer_of_chainRefused v hpc hrefused
  exact ⟨accesses.reverse, (exec_wrNotify hpc hqpfn hpgsz v).trans (congrArg _ hend)⟩

end Sys2Proof.Machine
end

section
/-! PROOFS. A transfer inside one notify is its phases run one step of the machine at a time (spec/44_dma_transfer.md
R160, R174): in a phase a step runs what `dir ++ pc` selects (R74), of the copy one byte. -/

namespace Sys2Proof.Machine

/-! ## Steps in a row -/

/-- Some steps of the machine lead from `s` to `t`. -/
abbrev StepsTo : State → State → Prop := Relation.ReflTransGen fun s t => step s = .next t

theorem run_of_step {M : Host.Core} {s t : M.State} (h : M.step s = .next t) (n : Nat) :
    M.run (n + 1) s = M.run n t := by
  rw [Host.Core.run, h]

theorem run_of_stepsTo {s t : State} (h : StepsTo s t) : ∃ n : Nat, Host.Core.run core n s = .next t := by
  induction h using Relation.ReflTransGen.head_induction_on with
  | refl => exact ⟨0, rfl⟩
  | head hstep _ ih =>
    obtain ⟨n, hn⟩ := ih
    exact ⟨n + 1, (run_of_step (M := core) hstep n).trans hn⟩

/-! ## One step in a phase -/

theorem step_of_selected {s t : State} {i : Instr} (hpc : s.pc ≠ .idle ∧ s.pc ≠ .dead)
    (hdecode : decodeSeq (seqWord s) = .ok i) (hexec : exec i s = .next t) : step s = .next t :=
  (step_operation (fetch_phase hpc.1 hpc.2 hdecode)).trans hexec

/-- A phase whose operation both directions select is run by a step (R74). -/
theorem stepsTo_phase {p : Phase} {i : Instr} {f : State → State} (hp : p ≠ .idle ∧ p ≠ .dead)
    (hdecode : ∀ dir : Bool, decodeSeq (BitVec.ofBool dir ++ p.code) = .ok i)
    (hexec : ∀ s, exec i s = inPhase p s (f s)) {s : State} (hpc : s.pc = p) : StepsTo s (f s) := by
  subst hpc
  exact .single (step_of_selected hp (hdecode _) ((hexec s).trans (inPhase_self rfl hp.2)))

/-- In T_COPY the direction selects the operation (R167). -/
theorem step_copy {s : State} (hpc : s.pc = .copy) : step s = .next (copyStep s) := by
  cases hdir : deviceWritable s.xfer.d1 with
  | true =>
    have hdecode : decodeSeq (seqWord s) = .ok .dmaCopyD2g := by
      rw [seqWord, hdir, hpc]
      rfl
    rw [copyStep, if_pos hdir]
    exact step_of_selected (by simp [hpc]) hdecode (exec_dmaCopyD2g hpc hdir)
  | false =>
    have hdecode : decodeSeq (seqWord s) = .ok .dmaCopyG2d := by
      rw [seqWord, hdir, hpc]
      rfl
    rw [copyStep, if_neg (Bool.eq_false_iff.mp hdir)]
    exact step_of_selected (by simp [hpc]) hdecode (exec_dmaCopyG2d hpc hdir)

/-- The copy, one step per byte and the one that ends it. -/
theorem stepsTo_copyLoop (n : Nat) (s : State) : StepsTo s (copyLoop n s) := by
  induction n generalizing s with
  | zero => exact .refl
  | succ n ih =>
    unfold copyLoop
    split
    next hpc => exact .head (step_copy hpc) (ih _)
    next => exact .refl

/-! ## The whole transfer -/

/-- A phase that is run takes some steps, one that is skipped none. -/
theorem StepsTo.thenPhase {p : Phase} {f : State → State} (hf : ∀ {t}, t.pc = p → StepsTo t (f t)) {s t : State}
    (h : StepsTo s t) : StepsTo s (thenPhase p f t) := by
  unfold Machine.thenPhase
  split
  next hpc => exact h.trans (hf hpc)
  next => exact h

theorem stepsTo_transfer (s : State) : StepsTo s (transfer s) :=
  .thenPhase (stepsTo_phase (i := .dmaUsed) (by decide) (by decide) fun _ => rfl) <|
  .thenPhase (stepsTo_phase (i := .dmaId) (by decide) (by decide) fun _ => rfl) <|
  .thenPhase (fun _ => stepsTo_copyLoop _ _) <|
  .thenPhase (stepsTo_phase (i := .dmaSector) (by decide) (by decide) fun _ => rfl) <|
  .thenPhase (stepsTo_phase (i := .dmaDesc1) (by decide) (by decide) fun _ => rfl) <|
  .thenPhase (stepsTo_phase (i := .dmaDesc0) (by decide) (by decide) fun _ => rfl) <|
  .thenPhase (stepsTo_phase (i := .dmaHead) (by decide) (by decide) fun _ => rfl) <|
  .thenPhase (stepsTo_phase (i := .dmaFill) (by decide) (by decide) fun _ => rfl) <|
  .thenPhase (stepsTo_phase (i := .dmaBase) (by decide) (by decide) fun _ => rfl) .refl

/-- Settles O48: the next state of a notify is the end of its transfer, to which the steps lead, the copy by induction
on its bytes. -/
theorem oneStepTransferEqualsItsPhases : Obligations.OneStepTransferEqualsItsPhases := by
  intro v s t h
  obtain ⟨-, -, ht⟩ := execWrNotify_next h
  rw [ht]
  exact run_of_stepsTo (stepsTo_transfer (startTransfer (writeValue v) s))

end Sys2Proof.Machine
end

section
/-! PROOFS. The end of a transfer on memory (spec/45_used_ring.md R190, R191; R83): the next request id, and its low
three bits in the two bytes of the used-ring field, read off guest memory. -/

namespace Sys2Proof.Machine

/-! ## The request id -/

/-- Settles O28: the code selects the phase, which runs in T_ID. -/
theorem idPhaseTakesTheNextRequestId : Obligations.IdPhaseTakesTheNextRequestId :=
  ⟨rfl, fun _ hpc => inPhase_self hpc (by decide)⟩

/-! ## The used-ring field -/

/-- Neighbouring addresses are different bytes, also at the end of the address space (R52). -/
theorem addr_toNat_ne_succ (a : Addr) : a.toNat ≠ (a + 1).toNat := by bv_omega

/-- The low byte of a two-byte write is not covered by the high one. -/
theorem readByte_writeBytes_low {m : Memory} (a : Addr) (low high : Byte) (h : m.wf = true) :
    readByte (writeBytes m a [low, high]) a.toNat = low :=
  (readByte_writeByte_other _ high (addr_toNat_ne_succ a)).trans (readByte_writeByte_same low h)

theorem readByte_writeBytes_high {m : Memory} (a : Addr) (low high : Byte) (h : m.wf = true) :
    readByte (writeBytes m a [low, high]) (a + 1).toNat = high :=
  readByte_writeByte_same high (writeByte_wf a low h)

theorem readByte_writeBytes_pair_other (m : Memory) {a : Addr} {x : Nat} (low high : Byte) (hlow : x ≠ a.toNat)
    (hhigh : x ≠ (a + 1).toNat) : readByte (writeBytes m a [low, high]) x = readByte m x :=
  (readByte_writeByte_other _ high hhigh).trans (readByte_writeByte_other m low hlow)

/-- The id modulo 8 fits a byte (R83). -/
theorem idByte_toNat (id : Nat) : (BitVec.ofNat 8 (id % 8)).toNat = id % 8 := by
  rw [BitVec.toNat_ofNat]
  omega

/-- Settles O29: memory takes the two bytes of the field, which then read back there and nowhere else, or refuses
them. -/
theorem usedPhaseWritesIdModEight : Obligations.UsedPhaseWritesIdModEight := by
  intro s a hwf hpc ha
  constructor
  case left =>
    intro hserves
    obtain ⟨-, -, -, -, -, -, hused⟩ := phasesTakeWhateverTheBusAnswers s a
      (writeBytes s.mem a [BitVec.ofNat 8 (s.id % 8), 0]) 0 0
    obtain ⟨hwritten, -⟩ := hused hpc ha
    refine ⟨_, ?_, readByte_writeBytes_high a _ _ hwf, fun x => readByte_writeBytes_pair_other s.mem _ _,
      hwritten (busWrite_serves hserves)⟩
    rw [readByte_writeBytes_low a _ _ hwf, idByte_toNat]
  case right =>
    intro hrefuses
    obtain ⟨-, -, -, -, -, -, hused⟩ := phasesTakeWhateverTheBusAnswers s a s.mem 0 0
    obtain ⟨-, hrefused⟩ := hused hpc ha
    exact hrefused (busWrite_refuses hrefuses)

end Sys2Proof.Machine
end

section
/-! PROOFS. The disk store (spec/46_disk_store.md R200 to R203): the image is appended before the run, in the run the
length stays, and the byte operations read and write below it. -/

namespace Sys2Proof.Machine

/-! ## The length in the run -/

/-- The run has started, on a disk of `n` bytes (R203). -/
structure RunsOnDisk (n : Nat) (s : State) : Prop where
  running : s.running = true
  diskLength : s.disk.length = n

theorem SameOutside.runsOnDisk {s t : State} {n : Nat} (h : SameOutside s t) (hs : RunsOnDisk n s) :
    RunsOnDisk n t :=
  ⟨h.running.trans hs.running, h.diskLength.trans hs.diskLength⟩

theorem Served.runsOnDisk {s t : State} {n : Nat} (h : Served s t) (hs : RunsOnDisk n s) : RunsOnDisk n t := by
  cases h <;> exact ⟨hs.running, hs.diskLength⟩

/-- Only creation and the disk load change the length, and neither is served in the run (R233). -/
theorem Ran.runsOnDisk {s t : State} {i : Instr} {n : Nat} (h : Ran s i t) (hs : RunsOnDisk n s) :
    RunsOnDisk n t := by
  cases h with
  | reset _ hfresh => exact absurd hs.running (by simp [hfresh])
  | diskInit _ _ hfresh => exact absurd hs.running (by simp [hfresh])
  | served _ h => exact h.runsOnDisk hs
  | irqQuery => exact ⟨hs.running, hs.diskLength⟩
  | wrNotify v => exact (transfer_outside (startTransfer (writeValue v) s)).runsOnDisk ⟨hs.running, hs.diskLength⟩
  | base => exact (phaseBase_outside s).runsOnDisk hs
  | fill => exact (phaseFill_outside s).runsOnDisk hs
  | head => exact (phaseHead_outside s).runsOnDisk hs
  | desc0 => exact (phaseDesc0_outside s).runsOnDisk hs
  | desc1 => exact (phaseDesc1_outside s).runsOnDisk hs
  | sector => exact (phaseSector_outside s).runsOnDisk hs
  | copyG2d => exact (copyG2d_outside s).runsOnDisk hs
  | copyD2g => exact (copyD2g_outside s).runsOnDisk hs
  | id => exact (phaseId_outside s).runsOnDisk hs
  | used => exact (phaseUsed_outside s).runsOnDisk hs
  | descRead a => exact (descRead_outside s a).runsOnDisk hs
  | diskRdb off => exact (diskRdb_outside s off).runsOnDisk hs
  | diskWrb off b => exact (diskWrb_outside s off b).runsOnDisk hs

/-- Taking a request out of the inbox leaves the run on its disk, and so does a store of the driver. -/
theorem Stepped.runsOnDisk {s t : State} {n : Nat} (h : Stepped s t) (hs : RunsOnDisk n s) : RunsOnDisk n t := by
  cases h with
  | quiet => exact hs
  | ignored => exact ⟨hs.running, hs.diskLength⟩
  | guestStore => exact ⟨hs.running, hs.diskLength⟩
  | slave _ _ h => exact h.runsOnDisk ⟨rfl, hs.diskLength⟩
  | port _ _ h => exact h.runsOnDisk ⟨hs.running, hs.diskLength⟩
  | phase _ h => exact h.runsOnDisk hs

/-- Settles O5: the run on a disk of the present length is an invariant of the steps, by cases on what a step can do. -/
theorem runningStepsKeepDiskLength : Obligations.RunningStepsKeepDiskLength := by
  intro s t hrun h
  have ht : RunsOnDisk s.disk.length t := (step_stepped h).runsOnDisk ⟨hrun, rfl⟩
  exact ⟨ht.running, ht.diskLength⟩

/-! ## The image -/

/-- Settles O19: in IDLE the flag `running` decides between the appended image and the refusal. -/
theorem diskInitAppendsBeforeTheRun : Obligations.DiskInitAppendsBeforeTheRun :=
  fun _ _ hpc => ⟨beforeRun_fresh hpc, beforeRun_running hpc⟩

/-! ## The byte operations -/

section

variable {s : State} {off : Nat} (hpc : s.pc ≠ .dead)

include hpc

theorem exec_diskRdb_inside {b : Byte} (h : s.disk[off]? = some b) :
    exec (.diskRdb off) s = .next { s with answer := .diskByte b } :=
  primitive_of_eq hpc (diskRead_inside h _)

theorem exec_diskRdb_past (h : s.disk.length ≤ off) : exec (.diskRdb off) s = .next (raiseDiskAbort off s) :=
  primitive_of_eq hpc (diskRead_past h _)

theorem exec_diskWrb_inside (h : off < s.disk.length) (b : Byte) :
    exec (.diskWrb off b) s = .next { s with disk := s.disk.set off b, answer := .done } :=
  primitive_of_eq hpc (diskWrite_inside h b _)

theorem exec_diskWrb_past (h : s.disk.length ≤ off) (b : Byte) :
    exec (.diskWrb off b) s = .next (raiseDiskAbort off s) :=
  primitive_of_eq hpc (diskWrite_past h b _)

end

/-- Settles O34: inside the disk the byte is read or set, past its end both operations raise the same DiskAbort. -/
theorem diskByteOperations : Obligations.DiskByteOperations :=
  fun _ b _ _ hpc => ⟨exec_diskRdb_inside hpc, fun h => exec_diskWrb_inside hpc h b,
    fun h => ⟨exec_diskRdb_past hpc h, exec_diskWrb_past hpc h b⟩⟩

/-- Settles O35: the write leaves `pc` as it is and sets one entry of the disk, which the reads look up. -/
theorem diskReadReturnsTheLastWrite : Obligations.DiskReadReturnsTheLastWrite := by
  intro off other b s t hoff _ hpc hwrite
  rw [exec_diskWrb_inside hpc hoff] at hwrite
  obtain ⟨halive, hdisk⟩ : t.pc ≠ .dead ∧ t.disk = s.disk.set off b := by
    cases hwrite
    exact ⟨hpc, rfl⟩
  refine ⟨?length, exec_diskRdb_inside halive ?same, fun hne c hc => exec_diskRdb_inside halive ?other⟩
  case length => rw [hdisk, List.length_set]
  case same => rw [hdisk, List.getElem?_set_self hoff]
  case other => rw [hdisk, List.getElem?_set_ne hne.symm, hc]

end Sys2Proof.Machine
end

section
/-! PROOFS. What is not answered (spec/60_exceptions.md R211, R220, R221, R232, R233; spec/70_reset_and_hazards.md R261):
DEAD faults, a request during a transfer and a notify of an unconfigured queue are refused, and without a request
nothing happens. -/

namespace Sys2Proof.Machine

/-! ## Requests during a transfer -/

section
variable {s t : State} (hidle : s.pc ≠ .idle) (hdead : s.pc ≠ .dead)
include hidle hdead

theorem atPort_transferring : atPort s t = .refused .transferRunning := by
  unfold atPort
  split
  case h_1 hpc => exact absurd hpc hidle
  case h_2 hpc => exact absurd hpc hdead
  case h_3 => rfl

theorem beforeRun_transferring : beforeRun s t = .refused .transferRunning := by
  unfold beforeRun
  split
  case h_1 hpc => exact absurd hpc hidle
  case h_2 hpc => exact absurd hpc hdead
  case h_3 => rfl

end

/-- Outside IDLE an operation with a code of port S is the port's answer and nothing else: the test that WR.NOTIFY makes
before it (R261) is one of IDLE. -/
theorem exec_eq_atPort_of_encode {i : Instr} {op : SlaveOp} (hcode : encode i = some (.slave op)) {s : State}
    (hidle : s.pc ≠ .idle) : ∃ t, exec i s = atPort s t := by
  cases i <;> cases hcode
  case wrNotify => exact ⟨_, if_neg fun hnotify => hidle hnotify.1⟩
  all_goals exact ⟨_, rfl⟩

/-- Settles O52: a transaction and the query ask the port, DISK.INIT and RESET ask to run before the run, and both refuse
in a phase. -/
theorem requestsDuringATransferAreRefused : Obligations.RequestsDuringATransferAreRefused := by
  intro s op image hidle hdead
  obtain ⟨t, hport⟩ := exec_eq_atPort_of_encode (encode_decodeSlave op) hidle
  exact ⟨hport.trans (atPort_transferring hidle hdead), atPort_transferring hidle hdead,
    beforeRun_transferring hidle hdead, beforeRun_transferring hidle hdead⟩

/-! ## DEAD, and no request -/

/-- Settles O51: the fetch finds DEAD, and there no port, phase or primitive runs. -/
theorem deadAnswersNothing : Obligations.DeadAnswersNothing :=
  fun _ hpc => ⟨step_dead hpc, exec_dead hpc⟩

/-- Settles O53: an empty inbox is a quiet step to the state itself. -/
theorem withoutARequestNothingHappens : Obligations.WithoutARequestNothingHappens :=
  fun _ hpc hin => step_quiet hpc (by rw [hin, fetchEvent])

/-! ## A notify of an unconfigured queue -/

theorem exec_wrNotify_unconfigured {s : State} (hpc : s.pc = .idle) (hq : queueConfigured s = false) (v : Word64) :
    exec (.wrNotify v) s = .refused .queueNotConfigured := if_pos ⟨hpc, hq⟩

/-- Settles O38: a register at zero leaves the queue unconfigured. -/
theorem unconfiguredNotifyIsRefused : Obligations.UnconfiguredNotifyIsRefused := by
  intro v s hpc hzero
  have hq : queueConfigured s = false := by
    rw [Bool.eq_false_iff, ne_eq, queueConfigured_iff]
    rintro ⟨hqpfn, hpgsz⟩
    exact hzero.elim hqpfn hpgsz
  exact exec_wrNotify_unconfigured hpc hq v

/-! ## The interrupt line -/

theorem irqLine_eq_some_iff {s : State} {n : Nat} : irqLine s = some n ↔ irqLevel s = true ∧ s.params.virtioIrq = n := by
  unfold irqLine
  cases irqLevel s <;> simp

/-- Settles O17: the level is the bit, and the only number the line shows is VIRTIO_IRQ, while the level is 1. -/
theorem interruptLineFollowsThePendingBit : Obligations.InterruptLineFollowsThePendingBit :=
  fun _ => ⟨rfl, irqLine_eq_some_iff.trans (and_iff_left rfl)⟩

end Sys2Proof.Machine
end
